-- ==== Sys2Proof/Word.lean ====
section
/-! DEFINITION. The one data width of the block: every register, port and buffer cell is a byte (R73, R8). -/

namespace Sys2Proof

/-- An 8-bit cell: a register, a port, a data operand, a sample (R8, R73). -/
abbrev Byte := BitVec 8

end Sys2Proof
end

