-- ==== Sys2Proof/Syntax.lean ====
section
/-! DEFINITION. The whole of spec/opcode_table.json as one inductive, a constructor per row, in the table's order, and the
three formats the rows come in (R100). What an "instruction" of this block is: R12. -/

namespace Sys2Proof

/-- The format an instruction's bits come in (R100). `bus3`: port B bits 2:0, read once in every `CLK` (R101). `opw`: the
operation word of an agent, with a data byte for a write (R112). `fields`: the shape field of PSG register 13 (R107). -/
inductive Format where
  | bus3
  | opw
  | fields
  deriving DecidableEq, Repr

/-- The operations of the block, one constructor per row of the opcode table. `v` is a `DATA8` operand (R104). -/
inductive Instr where
  -- BUS3: the five bus actions, which `CLK` decodes from port B (R102)
  | busReset
  | busInactive
  | busRead
  | busWrite
  | busLatch
  -- OPW: the Host reads a VIA register (index 0 to 15 in this order, R40)
  | viaRdIrb
  | viaRdIra
  | viaRdDdrb
  | viaRdDdra
  | viaRdT1cL
  | viaRdT1cH
  | viaRdT1lL
  | viaRdT1lH
  | viaRdT2cL
  | viaRdT2cH
  | viaRdSr
  | viaRdAcr
  | viaRdPcr
  | viaRdIfr
  | viaRdIer
  | viaRdOraNh
  -- OPW: the Host writes a VIA register
  | viaWrOrb (v : Byte)
  | viaWrOra (v : Byte)
  | viaWrDdrb (v : Byte)
  | viaWrDdra (v : Byte)
  | viaWrT1cL (v : Byte)
  | viaWrT1cH (v : Byte)
  | viaWrT1lL (v : Byte)
  | viaWrT1lH (v : Byte)
  | viaWrT2cL (v : Byte)
  | viaWrT2cH (v : Byte)
  | viaWrSr (v : Byte)
  | viaWrAcr (v : Byte)
  | viaWrPcr (v : Byte)
  | viaWrIfr (v : Byte)
  | viaWrIer (v : Byte)
  | viaWrOraNh (v : Byte)
  -- OPW: the Host reads a PSG register directly
  | psgRd0
  | psgRd1
  | psgRd2
  | psgRd3
  | psgRd4
  | psgRd5
  | psgRd6
  | psgRd7
  | psgRd8
  | psgRd9
  | psgRd10
  | psgRd11
  | psgRd12
  | psgRd13
  | psgRd14
  | psgRd15
  -- OPW: the Host writes a PSG register directly
  | psgWr0 (v : Byte)
  | psgWr1 (v : Byte)
  | psgWr2 (v : Byte)
  | psgWr3 (v : Byte)
  | psgWr4 (v : Byte)
  | psgWr5 (v : Byte)
  | psgWr6 (v : Byte)
  | psgWr7 (v : Byte)
  | psgWr8 (v : Byte)
  | psgWr9 (v : Byte)
  | psgWr10 (v : Byte)
  | psgWr11 (v : Byte)
  | psgWr12 (v : Byte)
  | psgWr13 (v : Byte)
  | psgWr14 (v : Byte)
  | psgWr15 (v : Byte)
  -- OPW: the Clock and the Sink
  | clk
  | drain
  -- FIELDS: the sixteen shape codes, decoded at every envelope step (R107, R210)
  | envShape0
  | envShape1
  | envShape2
  | envShape3
  | envShape4
  | envShape5
  | envShape6
  | envShape7
  | envShape8
  | envShape9
  | envShapeA
  | envShapeB
  | envShapeC
  | envShapeD
  | envShapeE
  | envShapeF
  deriving DecidableEq, Repr

/-- The format each instruction is carried in (the table's column "format"). -/
def Instr.format : Instr → Format
  | .busReset => .bus3
  | .busInactive => .bus3
  | .busRead => .bus3
  | .busWrite => .bus3
  | .busLatch => .bus3
  | .viaRdIrb => .opw
  | .viaRdIra => .opw
  | .viaRdDdrb => .opw
  | .viaRdDdra => .opw
  | .viaRdT1cL => .opw
  | .viaRdT1cH => .opw
  | .viaRdT1lL => .opw
  | .viaRdT1lH => .opw
  | .viaRdT2cL => .opw
  | .viaRdT2cH => .opw
  | .viaRdSr => .opw
  | .viaRdAcr => .opw
  | .viaRdPcr => .opw
  | .viaRdIfr => .opw
  | .viaRdIer => .opw
  | .viaRdOraNh => .opw
  | .viaWrOrb _ => .opw
  | .viaWrOra _ => .opw
  | .viaWrDdrb _ => .opw
  | .viaWrDdra _ => .opw
  | .viaWrT1cL _ => .opw
  | .viaWrT1cH _ => .opw
  | .viaWrT1lL _ => .opw
  | .viaWrT1lH _ => .opw
  | .viaWrT2cL _ => .opw
  | .viaWrT2cH _ => .opw
  | .viaWrSr _ => .opw
  | .viaWrAcr _ => .opw
  | .viaWrPcr _ => .opw
  | .viaWrIfr _ => .opw
  | .viaWrIer _ => .opw
  | .viaWrOraNh _ => .opw
  | .psgRd0 => .opw
  | .psgRd1 => .opw
  | .psgRd2 => .opw
  | .psgRd3 => .opw
  | .psgRd4 => .opw
  | .psgRd5 => .opw
  | .psgRd6 => .opw
  | .psgRd7 => .opw
  | .psgRd8 => .opw
  | .psgRd9 => .opw
  | .psgRd10 => .opw
  | .psgRd11 => .opw
  | .psgRd12 => .opw
  | .psgRd13 => .opw
  | .psgRd14 => .opw
  | .psgRd15 => .opw
  | .psgWr0 _ => .opw
  | .psgWr1 _ => .opw
  | .psgWr2 _ => .opw
  | .psgWr3 _ => .opw
  | .psgWr4 _ => .opw
  | .psgWr5 _ => .opw
  | .psgWr6 _ => .opw
  | .psgWr7 _ => .opw
  | .psgWr8 _ => .opw
  | .psgWr9 _ => .opw
  | .psgWr10 _ => .opw
  | .psgWr11 _ => .opw
  | .psgWr12 _ => .opw
  | .psgWr13 _ => .opw
  | .psgWr14 _ => .opw
  | .psgWr15 _ => .opw
  | .clk => .opw
  | .drain => .opw
  | .envShape0 => .fields
  | .envShape1 => .fields
  | .envShape2 => .fields
  | .envShape3 => .fields
  | .envShape4 => .fields
  | .envShape5 => .fields
  | .envShape6 => .fields
  | .envShape7 => .fields
  | .envShape8 => .fields
  | .envShape9 => .fields
  | .envShapeA => .fields
  | .envShapeB => .fields
  | .envShapeC => .fields
  | .envShapeD => .fields
  | .envShapeE => .fields
  | .envShapeF => .fields

/-- How many bytes an instruction takes in its format: a write word is followed by its value byte (R112). -/
def Instr.length : Instr → Nat
  | .busReset => 1
  | .busInactive => 1
  | .busRead => 1
  | .busWrite => 1
  | .busLatch => 1
  | .viaRdIrb => 1
  | .viaRdIra => 1
  | .viaRdDdrb => 1
  | .viaRdDdra => 1
  | .viaRdT1cL => 1
  | .viaRdT1cH => 1
  | .viaRdT1lL => 1
  | .viaRdT1lH => 1
  | .viaRdT2cL => 1
  | .viaRdT2cH => 1
  | .viaRdSr => 1
  | .viaRdAcr => 1
  | .viaRdPcr => 1
  | .viaRdIfr => 1
  | .viaRdIer => 1
  | .viaRdOraNh => 1
  | .viaWrOrb _ => 2
  | .viaWrOra _ => 2
  | .viaWrDdrb _ => 2
  | .viaWrDdra _ => 2
  | .viaWrT1cL _ => 2
  | .viaWrT1cH _ => 2
  | .viaWrT1lL _ => 2
  | .viaWrT1lH _ => 2
  | .viaWrT2cL _ => 2
  | .viaWrT2cH _ => 2
  | .viaWrSr _ => 2
  | .viaWrAcr _ => 2
  | .viaWrPcr _ => 2
  | .viaWrIfr _ => 2
  | .viaWrIer _ => 2
  | .viaWrOraNh _ => 2
  | .psgRd0 => 1
  | .psgRd1 => 1
  | .psgRd2 => 1
  | .psgRd3 => 1
  | .psgRd4 => 1
  | .psgRd5 => 1
  | .psgRd6 => 1
  | .psgRd7 => 1
  | .psgRd8 => 1
  | .psgRd9 => 1
  | .psgRd10 => 1
  | .psgRd11 => 1
  | .psgRd12 => 1
  | .psgRd13 => 1
  | .psgRd14 => 1
  | .psgRd15 => 1
  | .psgWr0 _ => 2
  | .psgWr1 _ => 2
  | .psgWr2 _ => 2
  | .psgWr3 _ => 2
  | .psgWr4 _ => 2
  | .psgWr5 _ => 2
  | .psgWr6 _ => 2
  | .psgWr7 _ => 2
  | .psgWr8 _ => 2
  | .psgWr9 _ => 2
  | .psgWr10 _ => 2
  | .psgWr11 _ => 2
  | .psgWr12 _ => 2
  | .psgWr13 _ => 2
  | .psgWr14 _ => 2
  | .psgWr15 _ => 2
  | .clk => 1
  | .drain => 1
  | .envShape0 => 1
  | .envShape1 => 1
  | .envShape2 => 1
  | .envShape3 => 1
  | .envShape4 => 1
  | .envShape5 => 1
  | .envShape6 => 1
  | .envShape7 => 1
  | .envShape8 => 1
  | .envShape9 => 1
  | .envShapeA => 1
  | .envShapeB => 1
  | .envShapeC => 1
  | .envShapeD => 1
  | .envShapeE => 1
  | .envShapeF => 1

/-- The five bus actions as a type of their own, for the dispatch inside a pulse (R102, R130). -/
inductive BusAction where
  | reset
  | inactive
  | read
  | write
  | latch
  deriving DecidableEq, Repr

/-- The row of the table a bus action is. -/
def BusAction.instr : BusAction → Instr
  | .reset => .busReset
  | .inactive => .busInactive
  | .read => .busRead
  | .write => .busWrite
  | .latch => .busLatch

end Sys2Proof
end

