-- ==== Sys2Proof/WellFormed.lean ====
section
/-! DEFINITION. Which terms of `Instr` an agent may perform as an operation of its own: the ones the operation word can
write (R112, R114). A bus action is "performed inside `CLK`" (R114) and a shape code is a value of a field (R107), so a
program that names one is malformed. A data operand is a byte by its type (R104) and a register index is a constructor
(R75), so nothing else about a term can be wrong. -/

namespace Sys2Proof

/-- The check: an operation of an agent, one the operation word writes. -/
def Instr.wellFormed (i : Instr) : Bool := i.format == .opw

end Sys2Proof
end

