-- ==== Sys2Proof/Decode.lean ====
section
/-! DEFINITION. The decoders of the three formats (R100), total on any bits and rejecting by name, and after them the
encoder, written from the same tables: `BUS3` from R101 and R102, `OPW` from R112 and the index map R40, the shape field
from R107. -/

namespace Sys2Proof

/-- Why bytes are not an instruction. `empty`: there is no byte at all. `notAnOperation w`: the word `w` is one that R112
gives no meaning. `missingOperand w`: `w` is a write word and no value byte follows it (log 8). -/
inductive DecodeError where
  | empty
  | notAnOperation (w : Byte)
  | missingOperand (w : Byte)
  deriving DecidableEq, Repr

/-- The decode of `BUS3` from the level of the port lines, bits 7:3 not read (R101, R102, R130). -/
def decodeBus3 (portB : Byte) : BusAction :=
  if portB.getLsbD 2 = false then .reset
  else
    match portB.getLsbD 1, portB.getLsbD 0 with
    | false, false => .inactive
    | false, true => .read
    | true, false => .write
    | true, true => .latch

/-- The shape code of PSG register 13: its low four bits, bits 7:4 not read (R26, R107). -/
def shapeCode (r13 : Byte) : BitVec 4 := r13.extractLsb' 0 4

/-- The row a shape code is (R107). -/
def shapeOf (idx : BitVec 4) : Instr :=
  match idx.toNat with
  | 0 => .envShape0
  | 1 => .envShape1
  | 2 => .envShape2
  | 3 => .envShape3
  | 4 => .envShape4
  | 5 => .envShape5
  | 6 => .envShape6
  | 7 => .envShape7
  | 8 => .envShape8
  | 9 => .envShape9
  | 10 => .envShapeA
  | 11 => .envShapeB
  | 12 => .envShapeC
  | 13 => .envShapeD
  | 14 => .envShapeE
  | _ => .envShapeF

/-- `VIA_RD` at an index, by the map `VIA_MAP` (R40, R108, D2). -/
def viaReadOf (idx : BitVec 4) : Instr :=
  match idx.toNat with
  | 0 => .viaRdIrb
  | 1 => .viaRdIra
  | 2 => .viaRdDdrb
  | 3 => .viaRdDdra
  | 4 => .viaRdT1cL
  | 5 => .viaRdT1cH
  | 6 => .viaRdT1lL
  | 7 => .viaRdT1lH
  | 8 => .viaRdT2cL
  | 9 => .viaRdT2cH
  | 10 => .viaRdSr
  | 11 => .viaRdAcr
  | 12 => .viaRdPcr
  | 13 => .viaRdIfr
  | 14 => .viaRdIer
  | _ => .viaRdOraNh

/-- `VIA_WR` at an index, by the map `VIA_MAP` (R40, R108, D2). -/
def viaWriteOf (idx : BitVec 4) (v : Byte) : Instr :=
  match idx.toNat with
  | 0 => .viaWrOrb v
  | 1 => .viaWrOra v
  | 2 => .viaWrDdrb v
  | 3 => .viaWrDdra v
  | 4 => .viaWrT1cL v
  | 5 => .viaWrT1cH v
  | 6 => .viaWrT1lL v
  | 7 => .viaWrT1lH v
  | 8 => .viaWrT2cL v
  | 9 => .viaWrT2cH v
  | 10 => .viaWrSr v
  | 11 => .viaWrAcr v
  | 12 => .viaWrPcr v
  | 13 => .viaWrIfr v
  | 14 => .viaWrIer v
  | _ => .viaWrOraNh v

/-- `PSG_RD` at an index (R21 to R27, R103). -/
def psgReadOf (idx : BitVec 4) : Instr :=
  match idx.toNat with
  | 0 => .psgRd0
  | 1 => .psgRd1
  | 2 => .psgRd2
  | 3 => .psgRd3
  | 4 => .psgRd4
  | 5 => .psgRd5
  | 6 => .psgRd6
  | 7 => .psgRd7
  | 8 => .psgRd8
  | 9 => .psgRd9
  | 10 => .psgRd10
  | 11 => .psgRd11
  | 12 => .psgRd12
  | 13 => .psgRd13
  | 14 => .psgRd14
  | _ => .psgRd15

/-- `PSG_WR` at an index (R21 to R27, R103). -/
def psgWriteOf (idx : BitVec 4) (v : Byte) : Instr :=
  match idx.toNat with
  | 0 => .psgWr0 v
  | 1 => .psgWr1 v
  | 2 => .psgWr2 v
  | 3 => .psgWr3 v
  | 4 => .psgWr4 v
  | 5 => .psgWr5 v
  | 6 => .psgWr6 v
  | 7 => .psgWr7 v
  | 8 => .psgWr8 v
  | 9 => .psgWr9 v
  | 10 => .psgWr10 v
  | 11 => .psgWr11 v
  | 12 => .psgWr12 v
  | 13 => .psgWr13 v
  | 14 => .psgWr14 v
  | _ => .psgWr15 v

/-- The value byte after a write word `w` (R112). -/
def takeOperand (w : Byte) (rest : List Byte) (mk : Byte → Instr) : Except DecodeError (Instr × List Byte) :=
  match rest with
  | [] => .error (.missingOperand w)
  | v :: rest' => .ok (mk v, rest')

/-- The decode of an operation word and of the value byte a write word takes, with the bytes left over (R112): class in
bits 7:6, bit 5 zero, `rw` in bit 4, index in bits 3:0; the index and `rw` of `CLK` and `DRAIN` must be 0. -/
def decodeOpw : List Byte → Except DecodeError (Instr × List Byte)
  | [] => .error .empty
  | w :: rest =>
    let idx := w.extractLsb' 0 4
    if w.getLsbD 5 then .error (.notAnOperation w)
    else
      match w.getLsbD 7, w.getLsbD 6, w.getLsbD 4 with
      | false, false, false => .ok (viaReadOf idx, rest)
      | false, false, true => takeOperand w rest (viaWriteOf idx)
      | false, true, false => .ok (psgReadOf idx, rest)
      | false, true, true => takeOperand w rest (psgWriteOf idx)
      | true, false, false => if idx = 0#4 then .ok (.clk, rest) else .error (.notAnOperation w)
      | true, true, false => if idx = 0#4 then .ok (.drain, rest) else .error (.notAnOperation w)
      | true, _, true => .error (.notAnOperation w)

/-- The decode of bytes in a given format. For `bus3` the byte is the level of port B, for `fields` it is PSG register 13. -/
def decode (f : Format) (bytes : List Byte) : Except DecodeError (Instr × List Byte) :=
  match f with
  | .opw => decodeOpw bytes
  | .bus3 =>
    match bytes with
    | [] => .error .empty
    | b :: rest => .ok ((decodeBus3 b).instr, rest)
  | .fields =>
    match bytes with
    | [] => .error .empty
    | b :: rest => .ok (shapeOf (shapeCode b), rest)

/-- The word of an instruction in its format: the field value for `bus3` (R102; `BUS_RESET` has four, this is the least)
and for `fields` (R107), the operation word for `opw` (R112, R40). -/
def encodeWord : Instr → Byte
  | .busReset => 0b000#8
  | .busInactive => 0b100#8
  | .busRead => 0b101#8
  | .busWrite => 0b110#8
  | .busLatch => 0b111#8
  | .viaRdIrb => 0x00#8
  | .viaRdIra => 0x01#8
  | .viaRdDdrb => 0x02#8
  | .viaRdDdra => 0x03#8
  | .viaRdT1cL => 0x04#8
  | .viaRdT1cH => 0x05#8
  | .viaRdT1lL => 0x06#8
  | .viaRdT1lH => 0x07#8
  | .viaRdT2cL => 0x08#8
  | .viaRdT2cH => 0x09#8
  | .viaRdSr => 0x0A#8
  | .viaRdAcr => 0x0B#8
  | .viaRdPcr => 0x0C#8
  | .viaRdIfr => 0x0D#8
  | .viaRdIer => 0x0E#8
  | .viaRdOraNh => 0x0F#8
  | .viaWrOrb _ => 0x10#8
  | .viaWrOra _ => 0x11#8
  | .viaWrDdrb _ => 0x12#8
  | .viaWrDdra _ => 0x13#8
  | .viaWrT1cL _ => 0x14#8
  | .viaWrT1cH _ => 0x15#8
  | .viaWrT1lL _ => 0x16#8
  | .viaWrT1lH _ => 0x17#8
  | .viaWrT2cL _ => 0x18#8
  | .viaWrT2cH _ => 0x19#8
  | .viaWrSr _ => 0x1A#8
  | .viaWrAcr _ => 0x1B#8
  | .viaWrPcr _ => 0x1C#8
  | .viaWrIfr _ => 0x1D#8
  | .viaWrIer _ => 0x1E#8
  | .viaWrOraNh _ => 0x1F#8
  | .psgRd0 => 0x40#8
  | .psgRd1 => 0x41#8
  | .psgRd2 => 0x42#8
  | .psgRd3 => 0x43#8
  | .psgRd4 => 0x44#8
  | .psgRd5 => 0x45#8
  | .psgRd6 => 0x46#8
  | .psgRd7 => 0x47#8
  | .psgRd8 => 0x48#8
  | .psgRd9 => 0x49#8
  | .psgRd10 => 0x4A#8
  | .psgRd11 => 0x4B#8
  | .psgRd12 => 0x4C#8
  | .psgRd13 => 0x4D#8
  | .psgRd14 => 0x4E#8
  | .psgRd15 => 0x4F#8
  | .psgWr0 _ => 0x50#8
  | .psgWr1 _ => 0x51#8
  | .psgWr2 _ => 0x52#8
  | .psgWr3 _ => 0x53#8
  | .psgWr4 _ => 0x54#8
  | .psgWr5 _ => 0x55#8
  | .psgWr6 _ => 0x56#8
  | .psgWr7 _ => 0x57#8
  | .psgWr8 _ => 0x58#8
  | .psgWr9 _ => 0x59#8
  | .psgWr10 _ => 0x5A#8
  | .psgWr11 _ => 0x5B#8
  | .psgWr12 _ => 0x5C#8
  | .psgWr13 _ => 0x5D#8
  | .psgWr14 _ => 0x5E#8
  | .psgWr15 _ => 0x5F#8
  | .clk => 0x80#8
  | .drain => 0xC0#8
  | .envShape0 => 0x00#8
  | .envShape1 => 0x01#8
  | .envShape2 => 0x02#8
  | .envShape3 => 0x03#8
  | .envShape4 => 0x04#8
  | .envShape5 => 0x05#8
  | .envShape6 => 0x06#8
  | .envShape7 => 0x07#8
  | .envShape8 => 0x08#8
  | .envShape9 => 0x09#8
  | .envShapeA => 0x0A#8
  | .envShapeB => 0x0B#8
  | .envShapeC => 0x0C#8
  | .envShapeD => 0x0D#8
  | .envShapeE => 0x0E#8
  | .envShapeF => 0x0F#8

/-- The data operands of an instruction, which follow its word (R104, R112). -/
def encodeOperands : Instr → List Byte
  | .busReset => []
  | .busInactive => []
  | .busRead => []
  | .busWrite => []
  | .busLatch => []
  | .viaRdIrb => []
  | .viaRdIra => []
  | .viaRdDdrb => []
  | .viaRdDdra => []
  | .viaRdT1cL => []
  | .viaRdT1cH => []
  | .viaRdT1lL => []
  | .viaRdT1lH => []
  | .viaRdT2cL => []
  | .viaRdT2cH => []
  | .viaRdSr => []
  | .viaRdAcr => []
  | .viaRdPcr => []
  | .viaRdIfr => []
  | .viaRdIer => []
  | .viaRdOraNh => []
  | .viaWrOrb v => [v]
  | .viaWrOra v => [v]
  | .viaWrDdrb v => [v]
  | .viaWrDdra v => [v]
  | .viaWrT1cL v => [v]
  | .viaWrT1cH v => [v]
  | .viaWrT1lL v => [v]
  | .viaWrT1lH v => [v]
  | .viaWrT2cL v => [v]
  | .viaWrT2cH v => [v]
  | .viaWrSr v => [v]
  | .viaWrAcr v => [v]
  | .viaWrPcr v => [v]
  | .viaWrIfr v => [v]
  | .viaWrIer v => [v]
  | .viaWrOraNh v => [v]
  | .psgRd0 => []
  | .psgRd1 => []
  | .psgRd2 => []
  | .psgRd3 => []
  | .psgRd4 => []
  | .psgRd5 => []
  | .psgRd6 => []
  | .psgRd7 => []
  | .psgRd8 => []
  | .psgRd9 => []
  | .psgRd10 => []
  | .psgRd11 => []
  | .psgRd12 => []
  | .psgRd13 => []
  | .psgRd14 => []
  | .psgRd15 => []
  | .psgWr0 v => [v]
  | .psgWr1 v => [v]
  | .psgWr2 v => [v]
  | .psgWr3 v => [v]
  | .psgWr4 v => [v]
  | .psgWr5 v => [v]
  | .psgWr6 v => [v]
  | .psgWr7 v => [v]
  | .psgWr8 v => [v]
  | .psgWr9 v => [v]
  | .psgWr10 v => [v]
  | .psgWr11 v => [v]
  | .psgWr12 v => [v]
  | .psgWr13 v => [v]
  | .psgWr14 v => [v]
  | .psgWr15 v => [v]
  | .clk => []
  | .drain => []
  | .envShape0 => []
  | .envShape1 => []
  | .envShape2 => []
  | .envShape3 => []
  | .envShape4 => []
  | .envShape5 => []
  | .envShape6 => []
  | .envShape7 => []
  | .envShape8 => []
  | .envShape9 => []
  | .envShapeA => []
  | .envShapeB => []
  | .envShapeC => []
  | .envShapeD => []
  | .envShapeE => []
  | .envShapeF => []

/-- The bytes of an instruction in its format, the inverse of `decode` on what `encode` writes. -/
def encode (i : Instr) : List Byte := encodeWord i :: encodeOperands i

/-- The bytes of a program, a sequence of operations performed in order (R114). -/
def assemble (is : List Instr) : List Byte := is.flatMap encode

/-- The bytes of the numbered bits `w` (bit 0 the least significant bit of the first byte), up to the longest instruction,
with every bit from `nbits` on read as 0. -/
def tableBytes (nbits w : Nat) : List Byte :=
  [BitVec.ofNat 8 (w % 2 ^ nbits), BitVec.ofNat 8 (w % 2 ^ nbits / 256)]

/-- The instruction the decoders read from the numbered bits `w`. A field of exactly 3 bits is `BUS3`, one of exactly 4 bits
a shape code; whole bytes are an operation word, since an 8-bit word alone cannot say which of the three formats carries it
(log 10). -/
def decodeTableWord (nbits w : Nat) : Option Instr :=
  let format : Format := if nbits = 3 then .bus3 else if nbits = 4 then .fields else .opw
  match decode format (tableBytes nbits w) with
  | .ok (i, _) => some i
  | .error _ => none

end Sys2Proof
end

