-- ==== Sys2Proof/Config.lean ====
section
/-! DEFINITION. What one block fixes for good and no step changes: the open parameters of R7, the noise source, and the
reset parameters of R7. An opaque constant has no body: no proof can see its value, so a claim holds for every value. -/

namespace Sys2Proof.Config

/-- `MIX_GAIN`, the mixer's fixed gain multiplier, a natural number the spec leaves OPEN (R7, R233, D7; log 4). -/
opaque mixGain : Nat

/-- One less than `BUF_CAP`; `BUF_CAP` is OPEN and at least 1 (R7, D8; log 5). -/
opaque bufCapLessOne : Nat

/-- `BUF_CAP`, the number of samples the output buffer holds, at least 1 (R7, R34, D8; log 5). -/
def bufCap : Nat := bufCapLessOne + 1

/-- `F_CLK`, the clock frequency in hertz, OPEN and read by no rule (R7, R328, D9; log 6). -/
opaque clockHertz : Nat

/-- `NOISE_SRC`, the stream of noise bits: draw number `n` is `noiseSource n`. It is a free value under no law (R7, R192,
D32; log 3). -/
opaque noiseSource : Nat → Bool

/-- The envelope level for a period counter that is still 0 after a count, by shape code and position. R212 says the
case never reaches `ENV_VALUE`; in a state no run reaches the level is this free value (log 11). -/
opaque levelBeforeFirstPeriod : BitVec 4 → Nat → BitVec 4

/-- `PSG_REG_RESET` (R7, R61, D16). -/
def psgRegReset : Byte := 0x00#8

/-- `TONE_PERIOD_RESET` (R7, R61, D15). -/
def tonePeriodReset : BitVec 12 := 4095#12

/-- `NOISE_PERIOD_RESET` (R7, R61, D15). -/
def noisePeriodReset : BitVec 5 := 31#5

end Sys2Proof.Config
end

