-- ==== Sys2Proof/Machine/State.lean ====
section
/-! DEFINITION. The whole state of one block as plain data (spec/10_state.md), its value at creation, and the reasons a
step can stop. Three fields are the model's own and not the spec's: `result` (log 2), `draws` (log 3), `inbox` (log 1). -/

namespace Sys2Proof.Machine

/-- The block's only fault kind, named by R11 and R340. `indexOutOfRange`: raised by `BUS_READ` and `BUS_WRITE` with
`sel` above 15 (R136). It does not stop the block: it is recorded in `State.fault`, the pulse completes, and no step ends in
it (R340; log 7). Safe: a claim that takes `fault = none` as its premise says less than a real card does. -/
inductive Fault where
  | indexOutOfRange
  deriving DecidableEq, Repr

/-- Why a step gives no meaning. -/
inductive Refusal where
  /-- Raised by an arm of `exec` for a row that has no meaning yet. Safe. -/
  | notModelled (mnemonic : String)
  /-- Raised by `step` when the next word is one that R112 gives no meaning, which "a decoder of written programs refuses".
  Safe: such a word is no operation of any agent. -/
  | notAnOperation (word : Byte)
  /-- Raised by `step` when the next word is a write word and no value byte follows it (log 8). Safe: it is half an
  operation, and every operation is performed whole (R76). -/
  | missingOperand (word : Byte)
  deriving DecidableEq, Repr

/-- The `BUF` address space (R70): the samples at the addresses `0` to `BUF_CAP - 1`, as cells with rising addresses and no
zero sample. An address with no cell reads 0x00, the value of creation and of a full reset (R61; log 12). -/
abbrev Memory := List Host.Cell

/-- A tone channel (R30). -/
structure ToneChannel where
  /-- The divider's period, 0 to 4095; not read from the registers but kept (R30). -/
  period : BitVec 12
  /-- The down-counter, 1 to 4095. -/
  counter : BitVec 12
  /-- The square wave's level. -/
  signal : Bool
  deriving DecidableEq, Repr

/-- The noise generator (R31). -/
structure NoiseGen where
  period : BitVec 5
  counter : BitVec 5
  signal : Bool
  deriving DecidableEq, Repr

/-- The envelope generator (R32). -/
structure Envelope where
  /-- Envelope steps left in the current envelope period, 1 to 65536 (C4). -/
  remaining : BitVec 17
  /-- The number of the current envelope period, 0 before the first, with no upper bound (R220, D14). -/
  periodCounter : Nat
  /-- The level the last envelope step computed. -/
  value : BitVec 4
  deriving DecidableEq, Repr

/-- The Synthesizer Core (spec/10_state.md section 1). -/
structure Psg where
  /-- `psg[0..15]`, all eight bits stored (R20 to R28). -/
  regs : Vector Byte 16
  /-- The latched register index, all eight bits stored (R29). -/
  sel : Byte
  /-- Channels A, B, C (R30). -/
  tone : Vector ToneChannel 3
  /-- The noise generator shared by the channels (R31). -/
  noise : NoiseGen
  /-- The envelope generator (R32). -/
  env : Envelope
  /-- The output buffer's samples (R34). -/
  buf : Memory
  /-- The index the next sample is written at (R34). -/
  cursor : Nat
  /-- The clock-pulse counter, modulo 256 (R35). -/
  tick : Byte
  deriving DecidableEq, Repr

/-- An event toward the Host. It carries no payload (R58, R346). -/
inductive IrqEvent where
  | irq
  deriving DecidableEq, Repr

/-- The I/O-Timer Core (spec/10_state.md section 2). Slots 0 and 1 are shared by the output and the input register (R40). -/
structure Via where
  /-- Slot 0, `ORB` and `IRB` (R41). -/
  orb : Byte
  /-- Slot 1, `ORA` and `IRA` (R42). -/
  ora : Byte
  /-- Slot 2, the direction register of port B (R43). -/
  ddrb : Byte
  /-- Slot 3, the direction register of port A (R44). -/
  ddra : Byte
  /-- Slot 4, timer 1's live counter, low byte (R45). -/
  t1cL : Byte
  /-- Slot 5, timer 1's live counter, high byte (R46). -/
  t1cH : Byte
  /-- Slot 6, timer 1's latch, low byte (R47). -/
  t1lL : Byte
  /-- Slot 7, timer 1's latch, high byte (R48). -/
  t1lH : Byte
  /-- Slot 8, timer 2's live counter, low byte (R49). -/
  t2cL : Byte
  /-- Slot 9, timer 2's live counter, high byte (R50). -/
  t2cH : Byte
  /-- Slot 10, plain storage (R51). -/
  sr : Byte
  /-- Slot 11, aux control; bit 6 selects timer 1's continuous mode (R52). -/
  acr : Byte
  /-- Slot 12, plain storage (R53). -/
  pcr : Byte
  /-- Slot 13, the interrupt flags and the summary bit, kept as stored (R54, R59). -/
  ifr : Byte
  /-- Slot 14, the interrupt enables (R55). -/
  ier : Byte
  /-- Slot 15, plain storage (R56). -/
  oraNh : Byte
  /-- The level of port A's lines, the PSG's data bus (R57). -/
  portA : Byte
  /-- The level of port B's lines; bits 0, 1, 2 are BC1, BDIR, RESET (R57, R130). -/
  portB : Byte
  /-- The `IRQ` events emitted so far, oldest first (R58). -/
  irqTrace : List IrqEvent
  deriving DecidableEq, Repr

/-- What an operation returns to its agent (R10, R114, R237). The model's own (log 2). -/
inductive Result where
  /-- Nothing has been returned yet. -/
  | nothing
  /-- The byte of a `VIA_RD` or a `PSG_RD`. -/
  | byte (v : Byte)
  /-- The pair of `DRAIN`: the buffer's samples and the write cursor. -/
  | drained (buf : Memory) (cursor : Nat)
  deriving DecidableEq, Repr

/-- One block. -/
structure State where
  /-- The Synthesizer Core. -/
  psg : Psg
  /-- The I/O-Timer Core. -/
  via : Via
  /-- The sticky fault mark; no operation clears it (R39). -/
  fault : Option Fault
  /-- The model's own: what the last returning operation returned (log 2). -/
  result : Result
  /-- The model's own: how many noise bits have been drawn (log 3). -/
  draws : Nat
  /-- The model's own: the bytes of the operations the agents have still to perform, next first (R112, R114; log 1). -/
  inbox : List Byte
  deriving DecidableEq, Repr

/-- A tone channel after a full reset (R61, D15). -/
def ToneChannel.reset : ToneChannel :=
  { period := Config.tonePeriodReset, counter := Config.tonePeriodReset, signal := false }

/-- The noise generator after a full reset (R61, D15). -/
def NoiseGen.reset : NoiseGen :=
  { period := Config.noisePeriodReset, counter := Config.noisePeriodReset, signal := false }

/-- The envelope generator after a full reset (R61, D13). -/
def Envelope.reset : Envelope := { remaining := 1#17, periodCounter := 0, value := 0#4 }

/-- The full-reset state of the PSG (R61). -/
def Psg.reset : Psg :=
  { regs := Vector.replicate 16 Config.psgRegReset
    sel := 0x00#8
    tone := Vector.replicate 3 ToneChannel.reset
    noise := NoiseGen.reset
    env := Envelope.reset
    buf := []
    cursor := 0
    tick := 0x00#8 }

/-- The creation state of the VIA, all zero (R60, D28). -/
def Via.creation : Via :=
  { orb := 0x00#8, ora := 0x00#8, ddrb := 0x00#8, ddra := 0x00#8, t1cL := 0x00#8, t1cH := 0x00#8, t1lL := 0x00#8
    t1lH := 0x00#8, t2cL := 0x00#8, t2cH := 0x00#8, sr := 0x00#8, acr := 0x00#8, pcr := 0x00#8, ifr := 0x00#8
    ier := 0x00#8, oraNh := 0x00#8, portA := 0x00#8, portB := 0x00#8, irqTrace := [] }

/-- The creation state (R60, R370): the block begins exactly here. The three fields of the model's own begin empty (log 1, 2,
3). -/
def State.reset : State :=
  { psg := Psg.reset, via := Via.creation, fault := none, result := .nothing, draws := 0, inbox := [] }

end Sys2Proof.Machine
end

