-- ==== Sys2Proof/Machine/Ops.lean ====
section
/-! DEFINITION. The named operations over the state: the cells of the `BUF` space, the places an operation writes, the fault
mark and the `IRQ` event (what this block has in the place of taking an exception, R347), and fetching an operation. -/

namespace Sys2Proof.Machine

/-- What a meaning answers. -/
abbrev Answer := Host.Outcome State Fault Refusal

/-! ## The `BUF` address space (R34, R70) -/

/-- One cell; an unlisted address reads 0x00 (R61; log 12). -/
def Memory.read : Memory → Nat → Byte
  | [], _ => 0x00#8
  | (k, v) :: rest, a => if k = a then v else Memory.read rest a

/-- Put a cell in front, unless it holds what an unlisted address reads as. -/
def Memory.put (a : Nat) (v : Byte) (rest : Memory) : Memory := if v = 0x00#8 then rest else (a, v) :: rest

/-- A store of one cell that keeps the canonical form. -/
def Memory.write : Memory → Nat → Byte → Memory
  | [], a, v => Memory.put a v []
  | (k, w) :: rest, a, v =>
    if a < k then Memory.put a v ((k, w) :: rest)
    else if a = k then Memory.put a v rest
    else (k, w) :: Memory.write rest a v

/-- The addresses of a memory's cells. -/
def Memory.addresses (m : Memory) : List Nat := m.map Prod.fst

/-- The canonical form: rising addresses and no zero sample. -/
def Memory.wf (m : Memory) : Bool :=
  decide (List.Pairwise (· < ·) (Memory.addresses m)) && m.all (fun c => c.2 != 0x00#8)

/-- The samples of a buffer of a given capacity, first address first: the array that `DRAIN` exposes (R237). -/
def Memory.samples (capacity : Nat) (m : Memory) : List Byte := (List.range capacity).map (Memory.read m)

/-! ## Where an operation writes -/

/-- Replace the Synthesizer Core. -/
def State.setPsg (s : State) (p : Psg) : State := { s with psg := p }

/-- Replace the I/O-Timer Core. -/
def State.setVia (s : State) (x : Via) : State := { s with via := x }

/-- Set what the last returning operation returned (log 2). -/
def State.setResult (s : State) (r : Result) : State := { s with result := r }

/-- Hand a byte back to the Host (R10, R114; log 2). -/
def State.returnByte (s : State) (v : Byte) : State := s.setResult (.byte v)

/-- Replace the count of noise draws (log 3). -/
def State.setDraws (s : State) (n : Nat) : State := { s with draws := n }

/-- Replace the operations still to perform (log 1). -/
def State.setInbox (s : State) (bytes : List Byte) : State := { s with inbox := bytes }

/-! ## Faults and events: what stands in the place of an exception (R340, R346, R347) -/

/-- `raise Fault(kind)` (R10): set the sticky mark. Nothing else happens, and nothing clears the mark (R39). -/
def State.raiseFault (s : State) (kind : Fault) : State := { s with fault := some kind }

/-- `emit IRQ` (R10, R58): one event at the end of the trace. -/
def Via.emitIrq (x : Via) : Via := { x with irqTrace := x.irqTrace ++ [.irq] }

/-! ## The PSG register file (R20) -/

/-- The raw stored byte `psg[i]` (R10). -/
def Psg.reg (p : Psg) (i : Fin 16) : Byte := p.regs[i]

/-- The raw store `psg[i] <- v` (R10). -/
def Psg.store (p : Psg) (i : Fin 16) (v : Byte) : Psg := { p with regs := p.regs.set i v }

/-- The register index in `sel`, when it is one (R29, R103). -/
def Psg.selected (p : Psg) : Option (Fin 16) := if h : p.sel.toNat < 16 then some ⟨p.sel.toNat, h⟩ else none

/-! ## Fetching an operation (log 1) -/

/-- The next operation the agents perform, and the bytes after it. -/
def State.fetch (s : State) : Except DecodeError (Instr × List Byte) := decode .opw s.inbox

/-- What a step does when there is no operation to perform. An empty `inbox` is no agent acting, and the block "holds its
state for ever otherwise" (R355); a word that is no operation is refused (R112), and so is half an operation (log 8). -/
def noOperation (s : State) : DecodeError → Answer
  | .empty => .next s
  | .notAnOperation w => .refused (.notAnOperation w)
  | .missingOperand w => .refused (.missingOperand w)

/-- The bytes to place so that the next operation is the one numbered `w` (see `tableBytes`). -/
def operationBytes (nbits w : Nat) : List Byte :=
  match decode .opw (tableBytes nbits w) with
  | .ok (i, _) => (tableBytes nbits w).take i.length
  | .error _ => (tableBytes nbits w).take 1

/-- Put a bus control field on port B's low three lines, with a `CLK` next: how a bus action comes to run (R82, R130;
log 10). -/
def placeBus3 (s : State) (field : BitVec 3) : State :=
  (s.setVia { s.via with portB := s.via.portB.extractLsb' 3 5 ++ field }).setInbox (encode .clk ++ s.inbox)

/-- Put a shape code in register 13 of a PSG out of reset whose next tick is an envelope step, with a `CLK` next: how a shape
code comes to be decoded (R210, R324; log 10). -/
def placeShape (s : State) (code : BitVec 4) : State :=
  let p := { s.psg.store 13 ((s.psg.reg 13).extractLsb' 4 4 ++ code) with tick := 0xFF#8 }
  ((s.setPsg p).setVia { s.via with portB := s.via.portB.extractLsb' 3 5 ++ 0b100#3 }).setInbox (encode .clk ++ s.inbox)

end Sys2Proof.Machine
end

