-- ==== Sys2Proof/Machine/Operands.lean ====
section
/-! DEFINITION. How the block takes operands out of its registers: the assembled quantities of R105, the dividers' `eff`,
the envelope's position and level, the mixer's gates and levels, and the port merge. Bit positions are R7's defaults
(D3 to D6; log 14). -/

namespace Sys2Proof.Machine

/-! ## Ports (R284) -/

/-- `merge(v, d, p)`: bit by bit, `v` where the direction bit is 1 and `p` where it is 0 (R284). -/
def mergeBits (v d p : Byte) : Byte := (v &&& d) ||| (p &&& ~~~d)

/-! ## Dividers (R105, R193) -/

/-- `fine + ((coarse & 0x0F) << 8)`, 0 to 4095 (R105, R151). -/
def tonePeriod (fine coarse : Byte) : BitVec 12 :=
  BitVec.ofNat 12 (fine.toNat + ((coarse &&& 0x0F#8).toNat <<< 8))

/-- `psg[6] & 0x1F` (R105, R157). -/
def noisePeriod (r6 : Byte) : BitVec 5 := r6.extractLsb' 0 5

/-- `eff(p)`: a period of 0 divides by 1 (R193). -/
def eff {w : Nat} (p : BitVec w) : BitVec w := if p = 0 then 1 else p

/-- The fine register of a channel: `2c` (R21, D6). -/
def fineReg (c : Fin 3) : Fin 16 := ⟨2 * c.val, by omega⟩

/-- The coarse register of a channel: `2c + 1` (R21, D6). -/
def coarseReg (c : Fin 3) : Fin 16 := ⟨2 * c.val + 1, by omega⟩

/-- The amplitude register of a channel: `8 + c` (R24, D6). -/
def ampReg (c : Fin 3) : Fin 16 := ⟨8 + c.val, by omega⟩

/-! ## The envelope (spec/43_psg_envelope.md) -/

/-- The envelope period length `L = ((coarse << 8) | fine) + 1`, 1 to 65536 (R211). -/
def envLength (p : Psg) : Nat := (((p.reg 12).toNat <<< 8) ||| (p.reg 11).toNat) + 1

/-- `ENV_POS(L, rem)`, the position in the period (R213, D11, D12). -/
def envPosition (len rem : Nat) : Nat := 16 * (if rem ≤ len then len - rem else 0) / len

/-- `continue`, bit 3 of the shape code (R26, R210, D5). -/
def shapeContinue (code : BitVec 4) : Bool := code.getLsbD 3

/-- `attack`, bit 2 of the shape code. -/
def shapeAttack (code : BitVec 4) : Bool := code.getLsbD 2

/-- `alternate`, bit 1 of the shape code. -/
def shapeAlternate (code : BitVec 4) : Bool := code.getLsbD 1

/-- `hold`, bit 0 of the shape code. -/
def shapeHold (code : BitVec 4) : Bool := code.getLsbD 0

/-- `ramp(up)`: the position going up, 15 less the position going down (spec/43_psg_envelope.md section 3). -/
def ramp (up : Bool) (step : Nat) : BitVec 4 := BitVec.ofNat 4 (if up then step else 15 - step)

/-- `ENV_VALUE(step, pc)`: the five cases of R214 to R218, in their order. For `pc = 0`, which R212 corner (c) excludes, the
level is a free value (log 11). -/
def envLevel (code : BitVec 4) (step pc : Nat) : BitVec 4 :=
  let att := shapeAttack code
  let alt := shapeAlternate code
  if pc = 0 then Config.levelBeforeFirstPeriod code step
  else if pc = 1 then ramp att step
  else if !shapeContinue code then 0#4
  else if shapeHold code then (if alt ^^ att then 15#4 else 0#4)
  else if !alt then ramp att step
  else ramp (att ^^ decide ((pc - 1) % 2 = 1)) step

/-! ## The mixer (spec/44_psg_mixer_buffer.md) -/

/-- `tone_gate[c]`: the complement of mixer bit `c` (R230, D4). -/
def toneGate (p : Psg) (c : Fin 3) : Bool := !(p.reg 7).getLsbD c.val

/-- `noise_gate[c]`: the complement of mixer bit `c + 3` (R230, D4). -/
def noiseGate (p : Psg) (c : Fin 3) : Bool := !(p.reg 7).getLsbD (c.val + 3)

/-- The gated signal of a channel, one bit (R231, C1, C2, D18). -/
def gatedSignal (p : Psg) (c : Fin 3) : Bool :=
  (toneGate p c && p.tone[c].signal) || (noiseGate p c && p.noise.signal)

/-- The level of a channel: bit 4 of its amplitude register chooses the envelope (R232). -/
def channelLevel (p : Psg) (c : Fin 3) : BitVec 4 :=
  if (p.reg (ampReg c)).getLsbD 4 then p.env.value else (p.reg (ampReg c)).extractLsb' 0 4

/-- `mixed[c]`, 0 to 15 (R233). -/
def mixedChannel (p : Psg) (c : Fin 3) : Nat := if gatedSignal p c then (channelLevel p c).toNat else 0

/-- `MIX_STEP`: the sample, reduced modulo 256 and never clamped (R233, D36). -/
def mixSample (gain : Nat) (p : Psg) : Byte :=
  BitVec.ofNat 8 (gain * (mixedChannel p 0 + mixedChannel p 1 + mixedChannel p 2))

end Sys2Proof.Machine
end

