-- ==== Sys2Proof/Machine/Synth.lean ====
section
/-! DEFINITION. The Synthesizer Core's shared operations: a register write with its side effects, the full reset, and the
sub-steps of a synthesis step and of an envelope step (spec/41 to spec/44). -/

namespace Sys2Proof.Machine

/-! ## Register writes (spec/41_psg_registers.md) -/

/-- Recompute a channel's period from its register pair and reload its counter (R151 to R156, D17). -/
def Psg.reloadTone (p : Psg) (c : Fin 3) : Psg :=
  let period := tonePeriod (p.reg (fineReg c)) (p.reg (coarseReg c))
  { p with tone := p.tone.set c { p.tone[c] with period := period, counter := eff period } }

/-- Recompute the noise period and reload its counter; no bit is drawn (R157, D17). -/
def Psg.reloadNoise (p : Psg) : Psg :=
  let period := noisePeriod (p.reg 6)
  { p with noise := { p.noise with period := period, counter := eff period } }

/-- Restart the envelope generator; its level is kept (R164, R219, D13). -/
def Psg.restartEnvelope (p : Psg) : Psg := { p with env := { p.env with remaining := 1#17, periodCounter := 0 } }

/-- A write to the fine register of a channel (R151, R153, R155). -/
def Psg.writeFine (c : Fin 3) (v : Byte) (p : Psg) : Psg := (p.store (fineReg c) v).reloadTone c

/-- A write to the coarse register of a channel; all eight bits are stored (R152, R154, R156). -/
def Psg.writeCoarse (c : Fin 3) (v : Byte) (p : Psg) : Psg := (p.store (coarseReg c) v).reloadTone c

/-- `PSG_WR i, v` with all its side effects, for an index that is data: what `BUS_WRITE` performs (R71, R134). -/
def Psg.write (i : Fin 16) (v : Byte) (p : Psg) : Psg :=
  match i.val with
  | 0 => p.writeFine 0 v
  | 1 => p.writeCoarse 0 v
  | 2 => p.writeFine 1 v
  | 3 => p.writeCoarse 1 v
  | 4 => p.writeFine 2 v
  | 5 => p.writeCoarse 2 v
  | 6 => (p.store 6 v).reloadNoise
  | 13 => (p.store 13 v).restartEnvelope
  | _ => p.store i v

/-! ## A synthesis step (spec/42_psg_tone_noise.md, spec/44_psg_mixer_buffer.md) -/

/-- `TONE_STEP` (R190). -/
def ToneChannel.step (t : ToneChannel) : ToneChannel :=
  let c := t.counter - 1#12
  if c = 0#12 then { t with counter := eff t.period, signal := !t.signal } else { t with counter := c }

/-- Whether this noise step reloads, and so draws a bit (R191). -/
def NoiseGen.reloads (n : NoiseGen) : Bool := n.counter - 1#5 == 0#5

/-- `NOISE_STEP`; `bit` is the bit a reload draws (R191, R192). -/
def NoiseGen.step (bit : Bool) (n : NoiseGen) : NoiseGen :=
  if n.reloads then { n with counter := eff n.period, signal := bit } else { n with counter := n.counter - 1#5 }

/-- The four dividers of a synthesis step, which touch disjoint state (R195, R323). -/
def Psg.stepDividers (bit : Bool) (p : Psg) : Psg := { p with tone := p.tone.map ToneChannel.step, noise := p.noise.step bit }

/-- `APPEND` (R234). -/
def Psg.append (capacity : Nat) (sample : Byte) (p : Psg) : Psg :=
  { p with buf := Memory.write p.buf p.cursor sample, cursor := (p.cursor + 1) % capacity }

/-- `SYNTH_STEP`: the dividers, then the mix of their new signals, then the append (R195, R323, D10). -/
def Psg.synthStep (gain capacity : Nat) (bit : Bool) (p : Psg) : Psg :=
  let q := p.stepDividers bit
  q.append capacity (mixSample gain q)

/-! ## An envelope step (spec/43_psg_envelope.md) -/

/-- The count of `ENV_STEP`: at the end of a period, reload and number the next (R212). -/
def Envelope.count (len : Nat) (e : Envelope) : Envelope :=
  let r := e.remaining - 1#17
  if r = 0#17 then { e with remaining := BitVec.ofNat 17 len, periodCounter := e.periodCounter + 1 }
  else { e with remaining := r }

/-- `ENV_STEP` with a given shape code and period length (R212). -/
def Envelope.step (code : BitVec 4) (len : Nat) (e : Envelope) : Envelope :=
  let f := e.count len
  { f with value := envLevel code (envPosition len f.remaining.toNat) f.periodCounter }

/-- `ENV_STEP` on the PSG with a given shape code; the period length is read afresh (R211, R212, D12). -/
def Psg.envStep (code : BitVec 4) (p : Psg) : Psg := { p with env := p.env.step code (envLength p) }

end Sys2Proof.Machine
end

