-- ==== Sys2Proof/Machine/Bus.lean ====
section
/-! DEFINITION. The five bus actions (spec/40_bus_decoder.md). A pulse performs one of them (R130); the action alone, without
the rest of its pulse, is the meaning of its row (log 9). -/

namespace Sys2Proof.Machine

/-- `BUS_RESET`: every PSG item takes its full-reset value; the VIA, its ports, its trace and the fault mark stay (R61, R62,
R131). -/
def State.busReset (s : State) : State := s.setPsg Psg.reset

/-- `BUS_READ`: `psg[sel]` onto all of port A, or the fault (R133, R136, D20). -/
def State.busRead (s : State) : State :=
  match s.psg.selected with
  | some i => s.setVia { s.via with portA := s.psg.reg i }
  | none => s.raiseFault .indexOutOfRange

/-- `BUS_WRITE`: exactly `PSG_WR sel, port_a`, or the fault (R71, R134, R136). -/
def State.busWrite (s : State) : State :=
  match s.psg.selected with
  | some i => s.setPsg (s.psg.write i s.via.portA)
  | none => s.raiseFault .indexOutOfRange

/-- `BUS_LATCH`: all eight bits of port A into `sel`; no fault even above 15 (R135, D19). -/
def State.busLatch (s : State) : State := s.setPsg { s.psg with sel := s.via.portA }

/-- `BUS_RESET` (R131). -/
def execBusReset (s : State) : Answer := .next s.busReset

/-- `BUS_INACTIVE`: nothing changes (R132). -/
def execBusInactive (s : State) : Answer := .next s

/-- `BUS_READ` (R133). -/
def execBusRead (s : State) : Answer := .next s.busRead

/-- `BUS_WRITE` (R134). -/
def execBusWrite (s : State) : Answer := .next s.busWrite

/-- `BUS_LATCH` (R135). -/
def execBusLatch (s : State) : Answer := .next s.busLatch

end Sys2Proof.Machine
end

