-- ==== Sys2Proof/Machine/Flags.lean ====
section
/-! DEFINITION. The interrupt flags of the VIA: `raise`, which is what this block has in the place of trap entry (R347), and
`clear`, in the place of trap return (R348), the enable command, and the mode bit. Bit positions are R7's defaults (D3). -/

namespace Sys2Proof.Machine

/-- The mask of timer 1's flag and enable, bit 6 (R54, R55, D3). -/
def timer1Mask : Byte := 0x40#8

/-- The mask of timer 2's flag and enable, bit 5 (R54, R55, D3). -/
def timer2Mask : Byte := 0x20#8

/-- The mask of the summary bit, bit 7 (R54, D3). -/
def summaryMask : Byte := 0x80#8

/-- `raise(m)`: set the flag; if its enable bit is 1, set the summary bit and emit `IRQ` (R282, D26). -/
def Via.raiseFlag (m : Byte) (x : Via) : Via :=
  if x.ier &&& m = 0x00#8 then { x with ifr := x.ifr ||| m }
  else Via.emitIrq { x with ifr := x.ifr ||| m ||| summaryMask }

/-- `clear(m)` on the flag register: clear the flag, and the summary bit if no bit of 6:0 is left (R283). -/
def clearedFlags (m ifr : Byte) : Byte :=
  let kept := ifr &&& ~~~m
  if kept &&& 0x7F#8 = 0x00#8 then kept &&& 0x7F#8 else kept

/-- `clear(m)` (R283). It emits nothing. -/
def Via.clearFlag (m : Byte) (x : Via) : Via := { x with ifr := clearedFlags m x.ifr }

/-- Whether a flag is pending (R344). -/
def Via.pending (m : Byte) (x : Via) : Bool := x.ifr &&& m != 0x00#8

/-- What a write to `IER` stores: the byte itself for a set command, its complement for a clear command (R109, R264, C5,
D29). -/
def enableCommand (v : Byte) : Byte := if v.getLsbD 7 then v else ~~~v

/-- `t1_cont`, bit 6 of `ACR` (R52, D3). -/
def Via.timer1Continuous (x : Via) : Bool := x.acr.getLsbD 6

end Sys2Proof.Machine
end

