-- ==== Sys2Proof/Machine/Timers.lean ====
section
/-! DEFINITION. `VIA_STEP`, the first part of every pulse: both timers count one and, on reaching zero, expire
(spec/46_via_timers.md). -/

namespace Sys2Proof.Machine

/-- `DEC16` on a low and a high byte: one count, the low byte borrowing from the high (R301, D24). -/
def countDown (lo hi : Byte) : Byte × Byte := if lo = 0x00#8 then (0xFF#8, hi - 1#8) else (lo - 1#8, hi)

/-- The expiry test of `DEC16`, after the count (R301, D24). -/
def expired (c : Byte × Byte) : Bool := c.1 == 0x00#8 && c.2 == 0x00#8

/-- `T1_EXPIRE`: continuous mode reloads from the latch and raises; one-shot raises if not pending (R302). -/
def Via.timer1Expire (x : Via) : Via :=
  if x.timer1Continuous then Via.raiseFlag timer1Mask { x with t1cL := x.t1lL, t1cH := x.t1lH }
  else if x.pending timer1Mask then x
  else Via.raiseFlag timer1Mask x

/-- `T2_EXPIRE`: raise if not pending (R303). -/
def Via.timer2Expire (x : Via) : Via := if x.pending timer2Mask then x else Via.raiseFlag timer2Mask x

/-- Timer 1's part of `VIA_STEP` (R300). -/
def Via.timer1Step (x : Via) : Via :=
  let c := countDown x.t1cL x.t1cH
  let y := { x with t1cL := c.1, t1cH := c.2 }
  if expired c then y.timer1Expire else y

/-- Timer 2's part of `VIA_STEP` (R300). -/
def Via.timer2Step (x : Via) : Via :=
  let c := countDown x.t2cL x.t2cH
  let y := { x with t2cL := c.1, t2cH := c.2 }
  if expired c then y.timer2Expire else y

/-- `VIA_STEP`: timer 1, then timer 2; the ports do not move (R300, D25). -/
def Via.step (x : Via) : Via := x.timer1Step.timer2Step

end Sys2Proof.Machine
end

