-- ==== Sys2Proof/Machine/Clock.lean ====
section
/-! DEFINITION. The clock pulse: `VIA_STEP`, the bus action, and outside reset the tick with the synthesis and envelope
steps it gates (spec/47_clock_pulse.md). -/

namespace Sys2Proof.Machine

/-- `SYNTH_STEP` with the block's gain, capacity and next noise bit; a reload of the noise divider uses the bit up (R323,
R192; log 3). -/
def State.synthStep (s : State) : State :=
  let n := if s.psg.noise.reloads then s.draws + 1 else s.draws
  (s.setPsg (s.psg.synthStep Config.mixGain Config.bufCap (Config.noiseSource s.draws))).setDraws n

/-- `ENV_STEP` with the shape code that register 13 holds now (R210, R324). -/
def State.envStep (s : State) : State := s.setPsg (s.psg.envStep (shapeCode (s.psg.reg 13)))

/-- The tick increment, modulo 256 (R322, D9). -/
def State.tickUp (s : State) : State := s.setPsg { s.psg with tick := s.psg.tick + 1#8 }

/-- Steps 4 and 5 of a pulse, by the incremented tick: a synthesis step on every 16th and, after it and nested in it, an
envelope step on every 256th (R321 to R324, D10). -/
def State.gatedSteps (s : State) : State :=
  if s.psg.tick.toNat % 16 = 0 then
    if s.psg.tick = 0#8 then s.synthStep.envStep else s.synthStep
  else s

/-- What follows the decode of port B: on reset the pulse ends there, else the action, the tick and the gated steps (R130,
R320, R325). -/
def State.busCycle (s : State) : BusAction → State
  | .reset => s.busReset
  | .inactive => s.tickUp.gatedSteps
  | .read => s.busRead.tickUp.gatedSteps
  | .write => s.busWrite.tickUp.gatedSteps
  | .latch => s.busLatch.tickUp.gatedSteps

/-- One pulse (R320): the VIA first, then the decoder on the port as it stands then. -/
def State.pulse (s : State) : State :=
  let t := s.setVia s.via.step
  t.busCycle (decodeBus3 t.via.portB)

/-- `CLK` (R320). -/
def execClk (s : State) : Answer := .next s.pulse

end Sys2Proof.Machine
end

