-- ==== Sys2Proof/Machine/EnvShape.lean ====
section
/-! DEFINITION. The sixteen shape codes: what an envelope step does under each (R107, R210, R212 to R218). A code is no
operation of an agent; a pulse performs the one in `psg[13]` on every 256th tick (R324; log 9). -/

namespace Sys2Proof.Machine

/-- Shape code 0x0: a ramp down, then 0 (R107, R214, R215). -/
def execEnvShape0 (s : State) : Answer := .next (s.setPsg (s.psg.envStep 0x0#4))

/-- Shape code 0x1: a ramp down, then 0 (R107, R214, R215). -/
def execEnvShape1 (s : State) : Answer := .next (s.setPsg (s.psg.envStep 0x1#4))

/-- Shape code 0x2: a ramp down, then 0 (R107, R214, R215). -/
def execEnvShape2 (s : State) : Answer := .next (s.setPsg (s.psg.envStep 0x2#4))

/-- Shape code 0x3: a ramp down, then 0 (R107, R214, R215). -/
def execEnvShape3 (s : State) : Answer := .next (s.setPsg (s.psg.envStep 0x3#4))

/-- Shape code 0x4: a ramp up, then 0 (R107, R214, R215). -/
def execEnvShape4 (s : State) : Answer := .next (s.setPsg (s.psg.envStep 0x4#4))

/-- Shape code 0x5: a ramp up, then 0 (R107, R214, R215). -/
def execEnvShape5 (s : State) : Answer := .next (s.setPsg (s.psg.envStep 0x5#4))

/-- Shape code 0x6: a ramp up, then 0 (R107, R214, R215). -/
def execEnvShape6 (s : State) : Answer := .next (s.setPsg (s.psg.envStep 0x6#4))

/-- Shape code 0x7: a ramp up, then 0 (R107, R214, R215). -/
def execEnvShape7 (s : State) : Answer := .next (s.setPsg (s.psg.envStep 0x7#4))

/-- Shape code 0x8: ramps down, repeated (R107, R214, R217). -/
def execEnvShape8 (s : State) : Answer := .next (s.setPsg (s.psg.envStep 0x8#4))

/-- Shape code 0x9: a ramp down, then held at 0 (R107, R214, R216). -/
def execEnvShape9 (s : State) : Answer := .next (s.setPsg (s.psg.envStep 0x9#4))

/-- Shape code 0xA: down, up, down, and so on (R107, R214, R218). -/
def execEnvShapeA (s : State) : Answer := .next (s.setPsg (s.psg.envStep 0xA#4))

/-- Shape code 0xB: a ramp down, then held at 15 (R107, R214, R216). -/
def execEnvShapeB (s : State) : Answer := .next (s.setPsg (s.psg.envStep 0xB#4))

/-- Shape code 0xC: ramps up, repeated (R107, R214, R217). -/
def execEnvShapeC (s : State) : Answer := .next (s.setPsg (s.psg.envStep 0xC#4))

/-- Shape code 0xD: a ramp up, then held at 15 (R107, R214, R216). -/
def execEnvShapeD (s : State) : Answer := .next (s.setPsg (s.psg.envStep 0xD#4))

/-- Shape code 0xE: up, down, up, and so on (R107, R214, R218). -/
def execEnvShapeE (s : State) : Answer := .next (s.setPsg (s.psg.envStep 0xE#4))

/-- Shape code 0xF: a ramp up, then held at 0 (R107, R214, R216). -/
def execEnvShapeF (s : State) : Answer := .next (s.setPsg (s.psg.envStep 0xF#4))

end Sys2Proof.Machine
end

