-- ==== Sys2Proof/Machine/PsgRead.lean ====
section
/-! DEFINITION. The Host's direct reads of the PSG's sixteen registers, one meaning each (spec/41_psg_registers.md section 1). -/

namespace Sys2Proof.Machine

/-- `PSG_RD 0` (`A_FINE`): the stored byte, unmasked, and nothing else (R150). -/
def execPsgRd0 (s : State) : Answer := .next (s.returnByte (s.psg.reg 0))

/-- `PSG_RD 1` (`A_COARSE`): the stored byte, unmasked, and nothing else (R150). -/
def execPsgRd1 (s : State) : Answer := .next (s.returnByte (s.psg.reg 1))

/-- `PSG_RD 2` (`B_FINE`): the stored byte, unmasked, and nothing else (R150). -/
def execPsgRd2 (s : State) : Answer := .next (s.returnByte (s.psg.reg 2))

/-- `PSG_RD 3` (`B_COARSE`): the stored byte, unmasked, and nothing else (R150). -/
def execPsgRd3 (s : State) : Answer := .next (s.returnByte (s.psg.reg 3))

/-- `PSG_RD 4` (`C_FINE`): the stored byte, unmasked, and nothing else (R150). -/
def execPsgRd4 (s : State) : Answer := .next (s.returnByte (s.psg.reg 4))

/-- `PSG_RD 5` (`C_COARSE`): the stored byte, unmasked, and nothing else (R150). -/
def execPsgRd5 (s : State) : Answer := .next (s.returnByte (s.psg.reg 5))

/-- `PSG_RD 6` (`NOISE_PERIOD`): the stored byte, unmasked, and nothing else (R150). -/
def execPsgRd6 (s : State) : Answer := .next (s.returnByte (s.psg.reg 6))

/-- `PSG_RD 7` (`MIXER`): the stored byte, unmasked, and nothing else (R150). -/
def execPsgRd7 (s : State) : Answer := .next (s.returnByte (s.psg.reg 7))

/-- `PSG_RD 8` (`A_AMP`): the stored byte, unmasked, and nothing else (R150). -/
def execPsgRd8 (s : State) : Answer := .next (s.returnByte (s.psg.reg 8))

/-- `PSG_RD 9` (`B_AMP`): the stored byte, unmasked, and nothing else (R150). -/
def execPsgRd9 (s : State) : Answer := .next (s.returnByte (s.psg.reg 9))

/-- `PSG_RD 10` (`C_AMP`): the stored byte, unmasked, and nothing else (R150). -/
def execPsgRd10 (s : State) : Answer := .next (s.returnByte (s.psg.reg 10))

/-- `PSG_RD 11` (`ENV_FINE`): the stored byte, unmasked, and nothing else (R150). -/
def execPsgRd11 (s : State) : Answer := .next (s.returnByte (s.psg.reg 11))

/-- `PSG_RD 12` (`ENV_COARSE`): the stored byte, unmasked, and nothing else (R150). -/
def execPsgRd12 (s : State) : Answer := .next (s.returnByte (s.psg.reg 12))

/-- `PSG_RD 13` (`ENV_SHAPE`): the stored byte, unmasked, and nothing else (R150). -/
def execPsgRd13 (s : State) : Answer := .next (s.returnByte (s.psg.reg 13))

/-- `PSG_RD 14` (`IO_A`): the stored byte, unmasked, and nothing else (R150). -/
def execPsgRd14 (s : State) : Answer := .next (s.returnByte (s.psg.reg 14))

/-- `PSG_RD 15` (`IO_B`): the stored byte, unmasked, and nothing else (R150). -/
def execPsgRd15 (s : State) : Answer := .next (s.returnByte (s.psg.reg 15))

end Sys2Proof.Machine
end

