-- ==== Sys2Proof/Machine/PsgWrite.lean ====
section
/-! DEFINITION. The Host's direct writes to the PSG's sixteen registers, one meaning each (spec/41_psg_registers.md section 2). -/

namespace Sys2Proof.Machine

/-- `PSG_WR 0, v` (`A_FINE`): store, recompute channel A's period and reload its counter (R151). -/
def execPsgWr0 (v : Byte) (s : State) : Answer := .next (s.setPsg (s.psg.writeFine 0 v))

/-- `PSG_WR 1, v` (`A_COARSE`): store, recompute channel A's period and reload its counter (R152). -/
def execPsgWr1 (v : Byte) (s : State) : Answer := .next (s.setPsg (s.psg.writeCoarse 0 v))

/-- `PSG_WR 2, v` (`B_FINE`): store, recompute channel B's period and reload its counter (R153). -/
def execPsgWr2 (v : Byte) (s : State) : Answer := .next (s.setPsg (s.psg.writeFine 1 v))

/-- `PSG_WR 3, v` (`B_COARSE`): store, recompute channel B's period and reload its counter (R154). -/
def execPsgWr3 (v : Byte) (s : State) : Answer := .next (s.setPsg (s.psg.writeCoarse 1 v))

/-- `PSG_WR 4, v` (`C_FINE`): store, recompute channel C's period and reload its counter (R155). -/
def execPsgWr4 (v : Byte) (s : State) : Answer := .next (s.setPsg (s.psg.writeFine 2 v))

/-- `PSG_WR 5, v` (`C_COARSE`): store, recompute channel C's period and reload its counter (R156). -/
def execPsgWr5 (v : Byte) (s : State) : Answer := .next (s.setPsg (s.psg.writeCoarse 2 v))

/-- `PSG_WR 6, v` (`NOISE_PERIOD`): store, recompute the noise period and reload its counter (R157). -/
def execPsgWr6 (v : Byte) (s : State) : Answer := .next (s.setPsg ((s.psg.store 6 v).reloadNoise))

/-- `PSG_WR 7, v` (`MIXER`): store, with no other effect (R158). -/
def execPsgWr7 (v : Byte) (s : State) : Answer := .next (s.setPsg (s.psg.store 7 v))

/-- `PSG_WR 8, v` (`A_AMP`): store, with no other effect (R159). -/
def execPsgWr8 (v : Byte) (s : State) : Answer := .next (s.setPsg (s.psg.store 8 v))

/-- `PSG_WR 9, v` (`B_AMP`): store, with no other effect (R160). -/
def execPsgWr9 (v : Byte) (s : State) : Answer := .next (s.setPsg (s.psg.store 9 v))

/-- `PSG_WR 10, v` (`C_AMP`): store, with no other effect (R161). -/
def execPsgWr10 (v : Byte) (s : State) : Answer := .next (s.setPsg (s.psg.store 10 v))

/-- `PSG_WR 11, v` (`ENV_FINE`): store, with no other effect (R162). -/
def execPsgWr11 (v : Byte) (s : State) : Answer := .next (s.setPsg (s.psg.store 11 v))

/-- `PSG_WR 12, v` (`ENV_COARSE`): store, with no other effect (R163). -/
def execPsgWr12 (v : Byte) (s : State) : Answer := .next (s.setPsg (s.psg.store 12 v))

/-- `PSG_WR 13, v` (`ENV_SHAPE`): store and restart the envelope generator, its level kept (R164). -/
def execPsgWr13 (v : Byte) (s : State) : Answer := .next (s.setPsg ((s.psg.store 13 v).restartEnvelope))

/-- `PSG_WR 14, v` (`IO_A`): store, with no other effect (R165). -/
def execPsgWr14 (v : Byte) (s : State) : Answer := .next (s.setPsg (s.psg.store 14 v))

/-- `PSG_WR 15, v` (`IO_B`): store, with no other effect (R166). -/
def execPsgWr15 (v : Byte) (s : State) : Answer := .next (s.setPsg (s.psg.store 15 v))

end Sys2Proof.Machine
end

