-- ==== Sys2Proof/Machine/Sink.lean ====
section
/-! DEFINITION. The Sink's operation (spec/44_psg_mixer_buffer.md section 4). -/

namespace Sys2Proof.Machine

/-- `DRAIN`: the buffer and the write cursor, and nothing changes (R237, D40). -/
def execDrain (s : State) : Answer := .next (s.setResult (.drained s.psg.buf s.psg.cursor))

end Sys2Proof.Machine
end

