-- ==== Sys2Proof/Machine/ViaRead.lean ====
section
/-! DEFINITION. The Host's reads of the VIA's sixteen registers, one meaning each (spec/45_via_registers.md section 3). -/

namespace Sys2Proof.Machine

/-- `VIA_RD IRB`: the slot is recomputed from the lines on the input bits, and returned (R266, D21). -/
def execViaRdIrb (s : State) : Answer :=
  let v := mergeBits s.via.orb s.via.ddrb s.via.portB
  .next ((s.setVia { s.via with orb := v }).returnByte v)

/-- `VIA_RD IRA`: as `VIA_RD IRB`, for port A (R267, D21). -/
def execViaRdIra (s : State) : Answer :=
  let v := mergeBits s.via.ora s.via.ddra s.via.portA
  .next ((s.setVia { s.via with ora := v }).returnByte v)

/-- `VIA_RD DDRB`: the direction register of port B (R268). -/
def execViaRdDdrb (s : State) : Answer := .next (s.returnByte s.via.ddrb)

/-- `VIA_RD DDRA`: the direction register of port A (R269). -/
def execViaRdDdra (s : State) : Answer := .next (s.returnByte s.via.ddra)

/-- `VIA_RD T1C_L`: the live low byte, and timer 1's flag is cleared (R270). -/
def execViaRdT1cL (s : State) : Answer := .next ((s.setVia (s.via.clearFlag timer1Mask)).returnByte s.via.t1cL)

/-- `VIA_RD T1C_H`: timer 1's live high byte; its flag is not cleared (R271). -/
def execViaRdT1cH (s : State) : Answer := .next (s.returnByte s.via.t1cH)

/-- `VIA_RD T1L_L`: timer 1's latch, low byte (R272). -/
def execViaRdT1lL (s : State) : Answer := .next (s.returnByte s.via.t1lL)

/-- `VIA_RD T1L_H`: timer 1's latch, high byte (R273). -/
def execViaRdT1lH (s : State) : Answer := .next (s.returnByte s.via.t1lH)

/-- `VIA_RD T2C_L`: the live low byte, and timer 2's flag is cleared (R274). -/
def execViaRdT2cL (s : State) : Answer := .next ((s.setVia (s.via.clearFlag timer2Mask)).returnByte s.via.t2cL)

/-- `VIA_RD T2C_H`: timer 2's live high byte; its flag is not cleared (R275). -/
def execViaRdT2cH (s : State) : Answer := .next (s.returnByte s.via.t2cH)

/-- `VIA_RD SR`: plain storage (R276, D23). -/
def execViaRdSr (s : State) : Answer := .next (s.returnByte s.via.sr)

/-- `VIA_RD ACR`: aux control (R277). -/
def execViaRdAcr (s : State) : Answer := .next (s.returnByte s.via.acr)

/-- `VIA_RD PCR`: plain storage (R278, D23). -/
def execViaRdPcr (s : State) : Answer := .next (s.returnByte s.via.pcr)

/-- `VIA_RD IFR`: the stored flags, summary bit included; reading clears nothing (R279). -/
def execViaRdIfr (s : State) : Answer := .next (s.returnByte s.via.ifr)

/-- `VIA_RD IER`: the stored enables (R280). -/
def execViaRdIer (s : State) : Answer := .next (s.returnByte s.via.ier)

/-- `VIA_RD ORA_NH`: slot 15, not a read of port A (R281, D23). -/
def execViaRdOraNh (s : State) : Answer := .next (s.returnByte s.via.oraNh)

end Sys2Proof.Machine
end

