-- ==== Sys2Proof/Machine/ViaWrite.lean ====
section
/-! DEFINITION. The Host's writes to the VIA's sixteen registers, one meaning each (spec/45_via_registers.md section 2). -/

namespace Sys2Proof.Machine

/-- `VIA_WR ORB, v`: store, and drive the pins of port B that are outputs (R250). -/
def execViaWrOrb (v : Byte) (s : State) : Answer :=
  .next (s.setVia { s.via with orb := v, portB := mergeBits v s.via.ddrb s.via.portB })

/-- `VIA_WR ORA, v`: store, and drive the pins of port A that are outputs (R251). -/
def execViaWrOra (v : Byte) (s : State) : Answer :=
  .next (s.setVia { s.via with ora := v, portA := mergeBits v s.via.ddra s.via.portA })

/-- `VIA_WR DDRB, v`: port B does not move (R252, D22). -/
def execViaWrDdrb (v : Byte) (s : State) : Answer := .next (s.setVia { s.via with ddrb := v })

/-- `VIA_WR DDRA, v`: port A does not move (R253, D22). -/
def execViaWrDdra (v : Byte) (s : State) : Answer := .next (s.setVia { s.via with ddra := v })

/-- `VIA_WR T1C_L, v`: the byte goes to the latch, not to the live counter (R254). -/
def execViaWrT1cL (v : Byte) (s : State) : Answer := .next (s.setVia { s.via with t1lL := v })

/-- `VIA_WR T1C_H, v`: the latch's high byte, then the latch to the counter, then timer 1's flag cleared (R255). -/
def execViaWrT1cH (v : Byte) (s : State) : Answer :=
  .next (s.setVia (Via.clearFlag timer1Mask { s.via with t1lH := v, t1cL := s.via.t1lL, t1cH := v }))

/-- `VIA_WR T1L_L, v`: plain store (R256, D23). -/
def execViaWrT1lL (v : Byte) (s : State) : Answer := .next (s.setVia { s.via with t1lL := v })

/-- `VIA_WR T1L_H, v`: plain store: no copy to the counter, no flag cleared (R257, D23). -/
def execViaWrT1lH (v : Byte) (s : State) : Answer := .next (s.setVia { s.via with t1lH := v })

/-- `VIA_WR T2C_L, v`: plain store into the live low byte (R258, D23). -/
def execViaWrT2cL (v : Byte) (s : State) : Answer := .next (s.setVia { s.via with t2cL := v })

/-- `VIA_WR T2C_H, v`: the live high byte, and timer 2's flag cleared (R259). -/
def execViaWrT2cH (v : Byte) (s : State) : Answer :=
  .next (s.setVia (Via.clearFlag timer2Mask { s.via with t2cH := v }))

/-- `VIA_WR SR, v`: plain store (R260, D23). -/
def execViaWrSr (v : Byte) (s : State) : Answer := .next (s.setVia { s.via with sr := v })

/-- `VIA_WR ACR, v`: plain store; the mode is read at the next expiry (R261). -/
def execViaWrAcr (v : Byte) (s : State) : Answer := .next (s.setVia { s.via with acr := v })

/-- `VIA_WR PCR, v`: plain store (R262, D23). -/
def execViaWrPcr (v : Byte) (s : State) : Answer := .next (s.setVia { s.via with pcr := v })

/-- `VIA_WR IFR, v`: all eight bits replaced, no event (R263, D23). -/
def execViaWrIfr (v : Byte) (s : State) : Answer := .next (s.setVia { s.via with ifr := v })

/-- `VIA_WR IER, v`: the command's byte or its complement replaces the stored enables (R264, C5, D29). -/
def execViaWrIer (v : Byte) (s : State) : Answer := .next (s.setVia { s.via with ier := enableCommand v })

/-- `VIA_WR ORA_NH, v`: plain store; slot 1 and port A do not move (R265, D23). -/
def execViaWrOraNh (v : Byte) (s : State) : Answer := .next (s.setVia { s.via with oraNh := v })

end Sys2Proof.Machine
end

