-- ==== Sys2Proof/Machine/Dispatch.lean ====
section
/-! DEFINITION. Which meaning each instruction has: one arm per constructor, one direct call per arm. -/

namespace Sys2Proof.Machine

def exec (i : Instr) (s : State) : Host.Outcome State Fault Refusal :=
  match i with
  | .busReset => Sys2Proof.Machine.execBusReset s
  | .busInactive => Sys2Proof.Machine.execBusInactive s
  | .busRead => Sys2Proof.Machine.execBusRead s
  | .busWrite => Sys2Proof.Machine.execBusWrite s
  | .busLatch => Sys2Proof.Machine.execBusLatch s
  | .viaRdIrb => Sys2Proof.Machine.execViaRdIrb s
  | .viaRdIra => Sys2Proof.Machine.execViaRdIra s
  | .viaRdDdrb => Sys2Proof.Machine.execViaRdDdrb s
  | .viaRdDdra => Sys2Proof.Machine.execViaRdDdra s
  | .viaRdT1cL => Sys2Proof.Machine.execViaRdT1cL s
  | .viaRdT1cH => Sys2Proof.Machine.execViaRdT1cH s
  | .viaRdT1lL => Sys2Proof.Machine.execViaRdT1lL s
  | .viaRdT1lH => Sys2Proof.Machine.execViaRdT1lH s
  | .viaRdT2cL => Sys2Proof.Machine.execViaRdT2cL s
  | .viaRdT2cH => Sys2Proof.Machine.execViaRdT2cH s
  | .viaRdSr => Sys2Proof.Machine.execViaRdSr s
  | .viaRdAcr => Sys2Proof.Machine.execViaRdAcr s
  | .viaRdPcr => Sys2Proof.Machine.execViaRdPcr s
  | .viaRdIfr => Sys2Proof.Machine.execViaRdIfr s
  | .viaRdIer => Sys2Proof.Machine.execViaRdIer s
  | .viaRdOraNh => Sys2Proof.Machine.execViaRdOraNh s
  | .viaWrOrb v => Sys2Proof.Machine.execViaWrOrb v s
  | .viaWrOra v => Sys2Proof.Machine.execViaWrOra v s
  | .viaWrDdrb v => Sys2Proof.Machine.execViaWrDdrb v s
  | .viaWrDdra v => Sys2Proof.Machine.execViaWrDdra v s
  | .viaWrT1cL v => Sys2Proof.Machine.execViaWrT1cL v s
  | .viaWrT1cH v => Sys2Proof.Machine.execViaWrT1cH v s
  | .viaWrT1lL v => Sys2Proof.Machine.execViaWrT1lL v s
  | .viaWrT1lH v => Sys2Proof.Machine.execViaWrT1lH v s
  | .viaWrT2cL v => Sys2Proof.Machine.execViaWrT2cL v s
  | .viaWrT2cH v => Sys2Proof.Machine.execViaWrT2cH v s
  | .viaWrSr v => Sys2Proof.Machine.execViaWrSr v s
  | .viaWrAcr v => Sys2Proof.Machine.execViaWrAcr v s
  | .viaWrPcr v => Sys2Proof.Machine.execViaWrPcr v s
  | .viaWrIfr v => Sys2Proof.Machine.execViaWrIfr v s
  | .viaWrIer v => Sys2Proof.Machine.execViaWrIer v s
  | .viaWrOraNh v => Sys2Proof.Machine.execViaWrOraNh v s
  | .psgRd0 => Sys2Proof.Machine.execPsgRd0 s
  | .psgRd1 => Sys2Proof.Machine.execPsgRd1 s
  | .psgRd2 => Sys2Proof.Machine.execPsgRd2 s
  | .psgRd3 => Sys2Proof.Machine.execPsgRd3 s
  | .psgRd4 => Sys2Proof.Machine.execPsgRd4 s
  | .psgRd5 => Sys2Proof.Machine.execPsgRd5 s
  | .psgRd6 => Sys2Proof.Machine.execPsgRd6 s
  | .psgRd7 => Sys2Proof.Machine.execPsgRd7 s
  | .psgRd8 => Sys2Proof.Machine.execPsgRd8 s
  | .psgRd9 => Sys2Proof.Machine.execPsgRd9 s
  | .psgRd10 => Sys2Proof.Machine.execPsgRd10 s
  | .psgRd11 => Sys2Proof.Machine.execPsgRd11 s
  | .psgRd12 => Sys2Proof.Machine.execPsgRd12 s
  | .psgRd13 => Sys2Proof.Machine.execPsgRd13 s
  | .psgRd14 => Sys2Proof.Machine.execPsgRd14 s
  | .psgRd15 => Sys2Proof.Machine.execPsgRd15 s
  | .psgWr0 v => Sys2Proof.Machine.execPsgWr0 v s
  | .psgWr1 v => Sys2Proof.Machine.execPsgWr1 v s
  | .psgWr2 v => Sys2Proof.Machine.execPsgWr2 v s
  | .psgWr3 v => Sys2Proof.Machine.execPsgWr3 v s
  | .psgWr4 v => Sys2Proof.Machine.execPsgWr4 v s
  | .psgWr5 v => Sys2Proof.Machine.execPsgWr5 v s
  | .psgWr6 v => Sys2Proof.Machine.execPsgWr6 v s
  | .psgWr7 v => Sys2Proof.Machine.execPsgWr7 v s
  | .psgWr8 v => Sys2Proof.Machine.execPsgWr8 v s
  | .psgWr9 v => Sys2Proof.Machine.execPsgWr9 v s
  | .psgWr10 v => Sys2Proof.Machine.execPsgWr10 v s
  | .psgWr11 v => Sys2Proof.Machine.execPsgWr11 v s
  | .psgWr12 v => Sys2Proof.Machine.execPsgWr12 v s
  | .psgWr13 v => Sys2Proof.Machine.execPsgWr13 v s
  | .psgWr14 v => Sys2Proof.Machine.execPsgWr14 v s
  | .psgWr15 v => Sys2Proof.Machine.execPsgWr15 v s
  | .clk => Sys2Proof.Machine.execClk s
  | .drain => Sys2Proof.Machine.execDrain s
  | .envShape0 => Sys2Proof.Machine.execEnvShape0 s
  | .envShape1 => Sys2Proof.Machine.execEnvShape1 s
  | .envShape2 => Sys2Proof.Machine.execEnvShape2 s
  | .envShape3 => Sys2Proof.Machine.execEnvShape3 s
  | .envShape4 => Sys2Proof.Machine.execEnvShape4 s
  | .envShape5 => Sys2Proof.Machine.execEnvShape5 s
  | .envShape6 => Sys2Proof.Machine.execEnvShape6 s
  | .envShape7 => Sys2Proof.Machine.execEnvShape7 s
  | .envShape8 => Sys2Proof.Machine.execEnvShape8 s
  | .envShape9 => Sys2Proof.Machine.execEnvShape9 s
  | .envShapeA => Sys2Proof.Machine.execEnvShapeA s
  | .envShapeB => Sys2Proof.Machine.execEnvShapeB s
  | .envShapeC => Sys2Proof.Machine.execEnvShapeC s
  | .envShapeD => Sys2Proof.Machine.execEnvShapeD s
  | .envShapeE => Sys2Proof.Machine.execEnvShapeE s
  | .envShapeF => Sys2Proof.Machine.execEnvShapeF s

end Sys2Proof.Machine
end

