-- ==== Sys2Proof/Machine/Step.lean ====
section
/-! DEFINITION. One step: the next operation the agents have still to perform, performed whole (R9, R76; log 1). -/

namespace Sys2Proof.Machine

/-- One operation of one agent. It is taken off the list before it is performed. -/
def step (s : State) : Host.Outcome State Fault Refusal :=
  match s.fetch with
  | .ok (i, rest) => exec i (s.setInbox rest)
  | .error e => noOperation s e

/-- `s` with the operation numbered `w` placed where `step` takes its next one: in front of the list (log 1, 10). A field of
exactly 3 bits is put on port B, and one of exactly 4 bits in register 13 of a PSG that is out of reset and one tick short
of an envelope step; a `CLK` that performs it is then placed (R324; log 10). -/
def State.withFetchWord (s : State) (nbits w : Nat) : State :=
  if nbits = 3 then placeBus3 s (BitVec.ofNat 3 w)
  else if nbits = 4 then placeShape s (BitVec.ofNat 4 w)
  else s.setInbox (operationBytes nbits w ++ s.inbox)

end Sys2Proof.Machine
end

