-- ==== Sys2Proof/Machine/Pseudo.lean ====
section
/-! DEFINITION. The pseudo-operations of R115: each is nothing more than its expansion into operations (D31). -/

namespace Sys2Proof.Machine

/-- `CLK n`: `n` times `CLK` (R114). -/
def clkTimes (n : Nat) : List Instr := List.replicate n .clk

/-- `PSG_SELECT r`: `sel <- r` (R115). -/
def psgSelect (r : Byte) : List Instr := [.viaWrOra r, .viaWrOrb 0x07#8, .clk, .viaWrOrb 0x04#8]

/-- `PSG_STORE v`: `PSG_WR sel, v` (R115). -/
def psgStore (v : Byte) : List Instr := [.viaWrOra v, .viaWrOrb 0x06#8, .clk, .viaWrOrb 0x04#8]

/-- `PSG_SET r, v`: `PSG_WR r, v` in two pulses (R115). -/
def psgSet (r v : Byte) : List Instr := psgSelect r ++ psgStore v

/-- `PSG_LOAD`: the Host reads `psg[sel]` (R115). -/
def psgLoad : List Instr :=
  [.viaWrDdra 0x00#8, .viaWrOrb 0x05#8, .clk, .viaRdIra, .viaWrOrb 0x04#8, .viaWrDdra 0xFF#8]

/-- `PSG_RESET_PULSE`: a full reset (R115). -/
def psgResetPulse : List Instr := [.viaWrOrb 0x00#8, .clk, .viaWrOrb 0x04#8]

/-- `VIA_INIT_BUS`: ports ready, RESET released, bus inactive (R115). -/
def viaInitBus : List Instr := [.viaWrDdrb 0x07#8, .viaWrDdra 0xFF#8, .viaWrOrb 0x04#8]

end Sys2Proof.Machine
end

