-- ==== Sys2Proof/Safety.lean ====
section
/-! DEFINITION. The terms claims are made in: the invariant of R36, R59 and of the buffer's form, a run of clock pulses, the
timers as 16-bit numbers, the shape codes and flag changes as the spec words them, and the operation words written out. -/

namespace Sys2Proof.Machine

/-- R36 (a): a tone counter is at least 1 and at most the effective period. -/
def ToneChannel.Inv (t : ToneChannel) : Prop := 1 ≤ t.counter.toNat ∧ t.counter.toNat ≤ (eff t.period).toNat

/-- R36 (b): the same of the noise divider. -/
def NoiseGen.Inv (n : NoiseGen) : Prop := 1 ≤ n.counter.toNat ∧ n.counter.toNat ≤ (eff n.period).toNat

/-- R36 (c) and (f): 1 to 65536 steps are left, and before the first period the generator stands as a restart left it. -/
def Envelope.Inv (e : Envelope) : Prop :=
  1 ≤ e.remaining.toNat ∧ e.remaining.toNat ≤ 65536 ∧ (e.periodCounter = 0 → e.remaining = 1#17)

/-- What holds of the PSG at creation and after every operation. -/
structure Psg.Inv (p : Psg) : Prop where
  /-- R36 (a). -/
  tones : ∀ c : Fin 3, (p.tone[c]).Inv
  /-- R36 (b). -/
  noise : p.noise.Inv
  /-- R36 (c), (f). -/
  envelope : p.env.Inv
  /-- R36 (d). -/
  cursor : p.cursor < Config.bufCap
  /-- The buffer is in its canonical form (log 12). -/
  bufForm : Memory.wf p.buf = true
  /-- No sample stands outside the buffer (R34). -/
  bufInside : ∀ a, Config.bufCap ≤ a → Memory.read p.buf a = 0x00#8

/-- What holds of a block at creation and after every operation. -/
structure Inv (s : State) : Prop where
  /-- The PSG's part (R36). -/
  psg : s.psg.Inv
  /-- R59 (b), R280: the enables are as created or have bit 7 set. -/
  enables : s.via.ier = 0x00#8 ∨ s.via.ier.getLsbD 7 = true

/-- A run of `n` clock pulses with nothing in between (R114, "`CLK n`"). -/
def pulses : Nat → State → Answer
  | 0, s => .next s
  | n + 1, s =>
    match exec .clk s with
    | .next t => pulses n t
    | o => o

/-- Timer 1's live counter (R351). -/
def Via.timer1 (x : Via) : Nat := x.t1cH.toNat * 256 + x.t1cL.toNat

/-- Timer 1's latch (R351). -/
def Via.latch1 (x : Via) : Nat := x.t1lH.toNat * 256 + x.t1lL.toNat

/-- Timer 2's live counter (R351). -/
def Via.timer2 (x : Via) : Nat := x.t2cH.toNat * 256 + x.t2cL.toNat

/-- How many pulses a timer holding `count` is from its expiry: `count`, and 65536 for 0 (R304 (a)). -/
def expiryIn (count : Nat) : Nat := if count = 0 then 65536 else count

/-- The envelope period length in numbers (R211). -/
def Psg.periodLength (p : Psg) : Nat := (p.reg 12).toNat * 256 + (p.reg 11).toNat + 1

/-- The effective period in numbers (R193). -/
def effNat (p : Nat) : Nat := if p = 0 then 1 else p

/-- How `clear` of the flag at bit `k` changes the flag register (R283): the flag goes, the other flags stay, and the summary
bit stays only if it was set and some flag is left. -/
def FlagCleared (k : Nat) (before after : Byte) : Prop :=
  after.getLsbD k = false ∧ (∀ j, j < 7 → j ≠ k → after.getLsbD j = before.getLsbD j) ∧
    (after.getLsbD 7 = true ↔ before.getLsbD 7 = true ∧ ∃ j, j < 7 ∧ after.getLsbD j = true)

/-- The four shape bits by name (R210). -/
structure ShapeBits where
  cont : Bool
  att : Bool
  alt : Bool
  hold : Bool
  deriving DecidableEq, Repr

/-- The four bits as a shape code: `continue` bit 3, `attack` bit 2, `alternate` bit 1, `hold` bit 0 (R26, D5). -/
def ShapeBits.code (b : ShapeBits) : BitVec 4 :=
  BitVec.ofBool b.cont ++ BitVec.ofBool b.att ++ BitVec.ofBool b.alt ++ BitVec.ofBool b.hold

/-- The shape rows with their bits, the columns "C A Al H" of R107's table. -/
def shapeTable : List (Instr × ShapeBits) :=
  [(.envShape0, ⟨false, false, false, false⟩), (.envShape1, ⟨false, false, false, true⟩),
   (.envShape2, ⟨false, false, true, false⟩), (.envShape3, ⟨false, false, true, true⟩),
   (.envShape4, ⟨false, true, false, false⟩), (.envShape5, ⟨false, true, false, true⟩),
   (.envShape6, ⟨false, true, true, false⟩), (.envShape7, ⟨false, true, true, true⟩),
   (.envShape8, ⟨true, false, false, false⟩), (.envShape9, ⟨true, false, false, true⟩),
   (.envShapeA, ⟨true, false, true, false⟩), (.envShapeB, ⟨true, false, true, true⟩),
   (.envShapeC, ⟨true, true, false, false⟩), (.envShapeD, ⟨true, true, false, true⟩),
   (.envShapeE, ⟨true, true, true, false⟩), (.envShapeF, ⟨true, true, true, true⟩)]

/-- `ramp(up)` in numbers: the position, or 15 less the position (spec/43_psg_envelope.md section 3). -/
def rampNat (up : Bool) (step : Nat) : Nat := if up then step else 15 - step

/-- `ENV_POS(L, rem)` in numbers (R213, D11). -/
def positionNat (len rem : Nat) : Nat := if rem ≤ len then 16 * (len - rem) / len else 0

/-- `ENV_VALUE(step, pc)` by the bits of a shape row, for `pc` at least 1 (R214 to R218). -/
def ShapeBits.level (b : ShapeBits) (step pc : Nat) : Nat :=
  if pc = 1 then rampNat b.att step
  else if b.cont = false then 0
  else if b.hold = true then (if b.alt = b.att then 0 else 15)
  else if b.alt = false then rampNat b.att step
  else if pc % 2 = 1 then rampNat b.att step
  else rampNat (!b.att) step

/-- The level a shape stays at from its second period on, where it stays at one (R215, R216). -/
def ShapeBits.settled (b : ShapeBits) : Nat := if b.cont = true ∧ b.alt ≠ b.att then 15 else 0

/-- `mixed[c]` in numbers, from the mixer byte, the amplitude byte, the channel's signal, the noise signal and the envelope
level (R230 to R233, C1, C2, D4, D18). -/
def mixedNat (c : Nat) (mixer amp : Byte) (tone noise : Bool) (env : Nat) : Nat :=
  if (mixer.getLsbD c = false ∧ tone = true) ∨ (mixer.getLsbD (c + 3) = false ∧ noise = true) then
    if amp.getLsbD 4 = true then env else amp.toNat % 16
  else 0

/-- What the mixer makes of a PSG's signals, registers and envelope level (R233, D7, D36). -/
def sampleNat (gain : Nat) (p : Psg) : Nat :=
  gain * (mixedNat 0 p.regs[7] p.regs[8] p.tone[0].signal p.noise.signal p.env.value.toNat +
      mixedNat 1 p.regs[7] p.regs[9] p.tone[1].signal p.noise.signal p.env.value.toNat +
      mixedNat 2 p.regs[7] p.regs[10] p.tone[2].signal p.noise.signal p.env.value.toNat) % 256

/-- The writes to a fine register, with the channel (R151, R153, R155). -/
def fineWrites (v : Byte) : List (Instr × Fin 3) := [(.psgWr0 v, 0), (.psgWr2 v, 1), (.psgWr4 v, 2)]

/-- The writes to a coarse register, with the channel (R152, R154, R156). -/
def coarseWrites (v : Byte) : List (Instr × Fin 3) := [(.psgWr1 v, 0), (.psgWr3 v, 1), (.psgWr5 v, 2)]

/-- The writes that only store (R158 to R163, R165, R166). -/
def plainWrites (v : Byte) : List (Instr × Fin 16) :=
  [(.psgWr7 v, 7), (.psgWr8 v, 8), (.psgWr9 v, 9), (.psgWr10 v, 10), (.psgWr11 v, 11), (.psgWr12 v, 12),
   (.psgWr14 v, 14), (.psgWr15 v, 15)]

/-- The direct reads of the PSG with their indices (R150). -/
def psgReads : List (Instr × Fin 16) :=
  [(.psgRd0, 0), (.psgRd1, 1), (.psgRd2, 2), (.psgRd3, 3), (.psgRd4, 4), (.psgRd5, 5), (.psgRd6, 6), (.psgRd7, 7),
   (.psgRd8, 8), (.psgRd9, 9), (.psgRd10, 10), (.psgRd11, 11), (.psgRd12, 12), (.psgRd13, 13), (.psgRd14, 14),
   (.psgRd15, 15)]

/-- The direct writes of `v` to the PSG with their indices (R151 to R166). -/
def psgWrites (v : Byte) : List (Instr × Fin 16) :=
  [(.psgWr0 v, 0), (.psgWr1 v, 1), (.psgWr2 v, 2), (.psgWr3 v, 3), (.psgWr4 v, 4), (.psgWr5 v, 5), (.psgWr6 v, 6),
   (.psgWr7 v, 7), (.psgWr8 v, 8), (.psgWr9 v, 9), (.psgWr10 v, 10), (.psgWr11 v, 11), (.psgWr12 v, 12),
   (.psgWr13 v, 13), (.psgWr14 v, 14), (.psgWr15 v, 15)]

/-- `VIA_RD i` = `0x00 + i`, bit by bit, by the index map (R112, R40). -/
def viaReadWords : List (Byte × Instr) :=
  [(0b00000000#8, .viaRdIrb), (0b00000001#8, .viaRdIra), (0b00000010#8, .viaRdDdrb), (0b00000011#8, .viaRdDdra),
   (0b00000100#8, .viaRdT1cL), (0b00000101#8, .viaRdT1cH), (0b00000110#8, .viaRdT1lL), (0b00000111#8, .viaRdT1lH),
   (0b00001000#8, .viaRdT2cL), (0b00001001#8, .viaRdT2cH), (0b00001010#8, .viaRdSr), (0b00001011#8, .viaRdAcr),
   (0b00001100#8, .viaRdPcr), (0b00001101#8, .viaRdIfr), (0b00001110#8, .viaRdIer), (0b00001111#8, .viaRdOraNh)]

/-- `PSG_RD i` = `0x40 + i`, bit by bit (R112). -/
def psgReadWords : List (Byte × Instr) :=
  [(0b01000000#8, .psgRd0), (0b01000001#8, .psgRd1), (0b01000010#8, .psgRd2), (0b01000011#8, .psgRd3),
   (0b01000100#8, .psgRd4), (0b01000101#8, .psgRd5), (0b01000110#8, .psgRd6), (0b01000111#8, .psgRd7),
   (0b01001000#8, .psgRd8), (0b01001001#8, .psgRd9), (0b01001010#8, .psgRd10), (0b01001011#8, .psgRd11),
   (0b01001100#8, .psgRd12), (0b01001101#8, .psgRd13), (0b01001110#8, .psgRd14), (0b01001111#8, .psgRd15)]

/-- The words with no value byte: the reads, `CLK` and `DRAIN` (R112). -/
def bareWords : List (Byte × Instr) :=
  viaReadWords ++ psgReadWords ++ [(0b10000000#8, .clk), (0b11000000#8, .drain)]

/-- `VIA_WR i, v` = `0x10 + i`, bit by bit, by the index map (R112, R40). -/
def viaWriteWords (v : Byte) : List (Byte × Instr) :=
  [(0b00010000#8, .viaWrOrb v), (0b00010001#8, .viaWrOra v), (0b00010010#8, .viaWrDdrb v),
   (0b00010011#8, .viaWrDdra v), (0b00010100#8, .viaWrT1cL v), (0b00010101#8, .viaWrT1cH v),
   (0b00010110#8, .viaWrT1lL v), (0b00010111#8, .viaWrT1lH v), (0b00011000#8, .viaWrT2cL v),
   (0b00011001#8, .viaWrT2cH v), (0b00011010#8, .viaWrSr v), (0b00011011#8, .viaWrAcr v),
   (0b00011100#8, .viaWrPcr v), (0b00011101#8, .viaWrIfr v), (0b00011110#8, .viaWrIer v),
   (0b00011111#8, .viaWrOraNh v)]

/-- `PSG_WR i, v` = `0x50 + i`, bit by bit (R112). -/
def psgWriteWords (v : Byte) : List (Byte × Instr) :=
  [(0b01010000#8, .psgWr0 v), (0b01010001#8, .psgWr1 v), (0b01010010#8, .psgWr2 v), (0b01010011#8, .psgWr3 v),
   (0b01010100#8, .psgWr4 v), (0b01010101#8, .psgWr5 v), (0b01010110#8, .psgWr6 v), (0b01010111#8, .psgWr7 v),
   (0b01011000#8, .psgWr8 v), (0b01011001#8, .psgWr9 v), (0b01011010#8, .psgWr10 v), (0b01011011#8, .psgWr11 v),
   (0b01011100#8, .psgWr12 v), (0b01011101#8, .psgWr13 v), (0b01011110#8, .psgWr14 v), (0b01011111#8, .psgWr15 v)]

/-- The words that a value byte follows: the writes (R112). -/
def valueWords (v : Byte) : List (Byte × Instr) := viaWriteWords v ++ psgWriteWords v

end Sys2Proof.Machine
end

