-- ==== Sys2Proof/Certificates/Slice0/Obligations.lean ====
section
/-! DEFINITION. The statements for the provers. Each docstring names the rule of spec/ it formalises, and the decision of the
spec or the log entry it rests on where there is one. "Log 2" everywhere: what an operation returns stands in `result`. -/

open Sys2Proof Sys2Proof.Machine

/-! ## Creation, encodings and steps -/

/-- R60, R61, R370 with the spec's own decisions D13, D15, D16, D28: every piece of state at creation. -/
def Obligations.CreationState : Prop :=
  (∀ i : Fin 16, State.reset.psg.regs[i] = 0x00#8) ∧ State.reset.psg.sel = 0x00#8 ∧
    (∀ c : Fin 3, State.reset.psg.tone[c].period.toNat = 4095 ∧ State.reset.psg.tone[c].counter.toNat = 4095 ∧
      State.reset.psg.tone[c].signal = false) ∧
    State.reset.psg.noise.period.toNat = 31 ∧ State.reset.psg.noise.counter.toNat = 31 ∧
    State.reset.psg.noise.signal = false ∧
    State.reset.psg.env.remaining.toNat = 1 ∧ State.reset.psg.env.periodCounter = 0 ∧
    State.reset.psg.env.value.toNat = 0 ∧
    (∀ a, Memory.read State.reset.psg.buf a = 0x00#8) ∧ State.reset.psg.cursor = 0 ∧ State.reset.psg.tick = 0x00#8 ∧
    State.reset.via =
      { orb := 0x00#8, ora := 0x00#8, ddrb := 0x00#8, ddra := 0x00#8, t1cL := 0x00#8, t1cH := 0x00#8, t1lL := 0x00#8
        t1lH := 0x00#8, t2cL := 0x00#8, t2cH := 0x00#8, sr := 0x00#8, acr := 0x00#8, pcr := 0x00#8, ifr := 0x00#8
        ier := 0x00#8, oraNh := 0x00#8, portA := 0x00#8, portB := 0x00#8, irqTrace := [] } ∧
    State.reset.fault = none

/-- R36 "true after creation", with R59 (b) and the buffer's form (log 12): the invariant holds at creation. -/
def Obligations.CreationMeetsInvariant : Prop := Inv State.reset

/-- R112 and R40 (the spec's own D30, D2): all 66 operation words, each written out bit by bit beside the operation it is, with
any value byte after a write word and any bytes after that. -/
def Obligations.OperationWordsReadRight : Prop :=
  (∀ (rest : List Byte), ∀ q ∈ bareWords, decode .opw (q.1 :: rest) = .ok (q.2, rest)) ∧
    ∀ (v : Byte) (rest : List Byte), ∀ q ∈ valueWords v, decode .opw (q.1 :: v :: rest) = .ok (q.2, rest)

/-- R107 with R26 (the spec's own D5): a shape code is read from bits 3:0 of its register, whatever bits 7:4 hold. -/
def Obligations.ShapeCodesReadRight : Prop :=
  ∀ q ∈ shapeTable, ∀ (hi : BitVec 4) (rest : List Byte), decode .fields ((hi ++ q.2.code) :: rest) = .ok (q.1, rest)

/-- R101, R102: the eight values of port B bits 2:0, with any bits above them, decode to the five actions. -/
def Obligations.BusDecodeIsTheTable : Prop :=
  ∀ hi : BitVec 5,
    decode .bus3 [hi ++ 0b000#3] = .ok (.busReset, []) ∧ decode .bus3 [hi ++ 0b001#3] = .ok (.busReset, []) ∧
      decode .bus3 [hi ++ 0b010#3] = .ok (.busReset, []) ∧ decode .bus3 [hi ++ 0b011#3] = .ok (.busReset, []) ∧
      decode .bus3 [hi ++ 0b100#3] = .ok (.busInactive, []) ∧ decode .bus3 [hi ++ 0b101#3] = .ok (.busRead, []) ∧
      decode .bus3 [hi ++ 0b110#3] = .ok (.busWrite, []) ∧ decode .bus3 [hi ++ 0b111#3] = .ok (.busLatch, [])

/-- R102, R107, R112: the decoder of an instruction's format gives back what the encoder wrote, for every instruction and
every operand, and leaves the bytes after it. -/
def Obligations.DecodeEncodeAgree : Prop :=
  ∀ (i : Instr) (rest : List Byte), decode i.format (encode i ++ rest) = .ok (i, rest)

/-- R112 the other way: bytes that decode as an operation are its encoding and the bytes left over, and the operation is one
an agent may perform. So no two words mean one operation. -/
def Obligations.DecodedBytesAreTheEncoding : Prop :=
  ∀ (bytes rest : List Byte) (i : Instr),
    decode .opw bytes = .ok (i, rest) → bytes = encode i ++ rest ∧ i.wellFormed = true

/-- R112 (D30): a word with bit 5 set, or of class 2 or 3 with a nonzero low field, "is not an operation" and is refused; any
other word with a byte after it is performed. -/
def Obligations.UnassignedWordsAreRefused : Prop :=
  ∀ (s : State) (w : Byte) (rest : List Byte), s.inbox = w :: rest →
    ((w.getLsbD 5 = true ∨ w.getLsbD 7 = true ∧ w.extractLsb' 0 5 ≠ 0#5) → step s = .refused (.notAnOperation w)) ∧
      (w.getLsbD 5 = false → (w.getLsbD 7 = true → w.extractLsb' 0 5 = 0#5) → rest ≠ [] → ∃ t, step s = .next t)

/-- R355 and the model's log 1, 8: with nothing to perform the block "holds its state for ever otherwise", and half an
operation, a write word with no value byte, is refused. -/
def Obligations.NothingToPerformHoldsState : Prop :=
  (∀ s : State, s.inbox = [] → step s = .next s) ∧
    ∀ (s : State) (w : Byte), s.inbox = [w] → w.getLsbD 7 = false → w.getLsbD 5 = false → w.getLsbD 4 = true →
      step s = .refused (.missingOperand w)

/-- R9, R76 and the model's log 1: the operation the next bytes decode to is taken off the list and performed whole, and a
step does nothing else. -/
def Obligations.StepPerformsTheNextOperation : Prop :=
  ∀ (s : State) (i : Instr) (rest : List Byte), decode .opw s.inbox = .ok (i, rest) →
    step s = exec i { s with inbox := rest }

/-- R11: every instruction in every state gives a next state; nothing is stuck and nothing waits. R11 says "or raises a fault":
that a faulting access answers a next state too, with the sticky mark set, is the spec's D19 (R136, R340) and the model's
choice of log 7 where R39 also allows a refusal. The mark is as it was, or it is the one fault there is. -/
def Obligations.EveryOperationCompletes : Prop :=
  ∀ (i : Instr) (s : State), ∃ t, exec i s = .next t ∧ (t.fault = s.fault ∨ t.fault = some .indexOutOfRange)

/-! ## The PSG's registers -/

/-- R150: a direct read returns the whole stored byte and changes no state (D42); its word is `0x40 + r` (D30); and
`BUS_READ` with `sel = r` puts the same byte on port A, all eight bits of it whatever `DDRA` holds (R133, D20). D42 and D20 are
decisions of the spec (log 14). -/
def Obligations.PsgReadReturnsStored : Prop :=
  ∀ s : State, ∀ q ∈ psgReads,
    exec q.1 s = .next { s with result := .byte s.psg.regs[q.2] } ∧
      encode q.1 = [0x40#8 + BitVec.ofNat 8 q.2.val] ∧
      (s.psg.sel.toNat = q.2.val → exec .busRead s = .next { s with via := { s.via with portA := s.psg.regs[q.2] } })

/-- R151 to R156 with R193 (D17): a write to registers 0 to 5 stores all eight bits, recomputes the 12-bit period of its
channel and reloads that channel's counter. The signal and everything else stay. -/
def Obligations.PsgWriteTonePeriods : Prop :=
  ∀ (s : State) (v : Byte),
    (∀ q ∈ fineWrites v, ∃ p k : BitVec 12,
      p.toNat = v.toNat + 256 * (s.psg.regs[coarseReg q.2].toNat % 16) ∧ k.toNat = effNat p.toNat ∧
        exec q.1 s = .next { s with psg := { s.psg with
          regs := s.psg.regs.set (fineReg q.2) v
          tone := s.psg.tone.set q.2 { s.psg.tone[q.2] with period := p, counter := k } } }) ∧
      ∀ q ∈ coarseWrites v, ∃ p k : BitVec 12,
        p.toNat = s.psg.regs[fineReg q.2].toNat + 256 * (v.toNat % 16) ∧ k.toNat = effNat p.toNat ∧
          exec q.1 s = .next { s with psg := { s.psg with
            regs := s.psg.regs.set (coarseReg q.2) v
            tone := s.psg.tone.set q.2 { s.psg.tone[q.2] with period := p, counter := k } } }

/-- R157 with R193 (D17): a write to register 6 stores all eight bits, takes bits 4:0 as the noise period and reloads the
noise counter; no bit is drawn. -/
def Obligations.PsgWriteNoisePeriod : Prop :=
  ∀ (s : State) (v : Byte), ∃ p k : BitVec 5,
    p.toNat = v.toNat % 32 ∧ k.toNat = effNat p.toNat ∧
      exec (.psgWr6 v) s = .next { s with psg := { s.psg with
        regs := s.psg.regs.set 6 v
        noise := { s.psg.noise with period := p, counter := k } } }

/-- R158 to R163 (registers 7 to 12) and R165, R166 (14, 15): the byte is stored and nothing else happens; the word is `0x50 + r`
(R112, D30); and `BUS_WRITE` with `sel = r` does the same (R134, R71). -/
def Obligations.PsgWritePlain : Prop :=
  ∀ (s : State) (v : Byte), ∀ q ∈ plainWrites v,
    exec q.1 s = .next { s with psg := { s.psg with regs := s.psg.regs.set q.2 v } } ∧
      encode q.1 = [0x50#8 + BitVec.ofNat 8 q.2.val, v] ∧
      (s.psg.sel.toNat = q.2.val → s.via.portA = v → exec .busWrite s = exec q.1 s)

/-- R164, R219 (D13): a write to register 13 restarts the envelope generator whatever the byte; its level stays. -/
def Obligations.PsgWriteShape : Prop :=
  ∀ (s : State) (v : Byte),
    exec (.psgWr13 v) s = .next { s with psg := { s.psg with
      regs := s.psg.regs.set 13 v
      env := { s.psg.env with remaining := 1#17, periodCounter := 0 } } }

/-- R167, R285: what is written is read back. All sixteen PSG registers; of the VIA the direction registers, timer 1's latch
and high byte, timer 2's counter, `SR`, `ACR`, `PCR`, `IFR`, `ORA_NH`; `IER` for a set command; the output registers on the
bits that are outputs; and a write to timer 1's low byte in the latch. -/
def Obligations.WrittenRegistersReadBack : Prop :=
  ∀ (s : State) (v : Byte),
    (∀ w ∈ psgWrites v, ∀ r ∈ psgReads, w.2 = r.2 →
      ∃ t, exec w.1 s = .next t ∧ exec r.1 t = .next { t with result := .byte v }) ∧
      (∀ q ∈ [(Instr.viaWrDdrb v, Instr.viaRdDdrb), (.viaWrDdra v, .viaRdDdra), (.viaWrT1lL v, .viaRdT1lL),
          (.viaWrT1lH v, .viaRdT1lH), (.viaWrT2cH v, .viaRdT2cH), (.viaWrSr v, .viaRdSr), (.viaWrAcr v, .viaRdAcr),
          (.viaWrPcr v, .viaRdPcr), (.viaWrIfr v, .viaRdIfr), (.viaWrOraNh v, .viaRdOraNh),
          (.viaWrT1cH v, .viaRdT1cH), (.viaWrT1cL v, .viaRdT1lL)],
        ∃ t, exec q.1 s = .next t ∧ exec q.2 t = .next { t with result := .byte v }) ∧
      (∃ t u, exec (.viaWrT2cL v) s = .next t ∧ exec .viaRdT2cL t = .next u ∧ u.result = .byte v) ∧
      (v.getLsbD 7 = true → ∃ t, exec (.viaWrIer v) s = .next t ∧ exec .viaRdIer t = .next { t with result := .byte v }) ∧
      (∃ t u x, exec (.viaWrOrb v) s = .next t ∧ exec .viaRdIrb t = .next u ∧ u.result = .byte x ∧
        ∀ j, j < 8 → s.via.ddrb.getLsbD j = true → x.getLsbD j = v.getLsbD j) ∧
      ∃ t u x, exec (.viaWrOra v) s = .next t ∧ exec .viaRdIra t = .next u ∧ u.result = .byte x ∧
        ∀ j, j < 8 → s.via.ddra.getLsbD j = true → x.getLsbD j = v.getLsbD j

/-- R20 "register values persist until overwritten", R71, R377, R378: the only ways to change PSG register `r`, over all
instructions: a direct write to it, a bus write with `sel = r`, a full reset, or a pulse that performs one of the last two. -/
def Obligations.PsgRegisterPersists : Prop :=
  ∀ (i : Instr) (s t : State) (r : Fin 16), exec i s = .next t → t.psg.regs[r] ≠ s.psg.regs[r] →
    (∃ v, (i, r) ∈ psgWrites v) ∨ i = .busReset ∨ i = .busWrite ∧ s.psg.sel.toNat = r.val ∨
      i = .clk ∧ (s.via.portB.getLsbD 2 = false ∨
        s.via.portB.extractLsb' 0 3 = 0b110#3 ∧ s.psg.sel.toNat = r.val)

/-! ## The VIA's registers -/

/-- R268, R269, R271, R272, R273, R275, R277, R279: these reads return the stored byte and have no side effect, by the spec's
decision D23 (log 14); the word is the index (D30). -/
def Obligations.ViaReadPlain : Prop :=
  ∀ s : State, ∀ q ∈ [(Instr.viaRdDdrb, s.via.ddrb, 0x02#8), (.viaRdDdra, s.via.ddra, 0x03#8),
      (.viaRdT1cH, s.via.t1cH, 0x05#8), (.viaRdT1lL, s.via.t1lL, 0x06#8), (.viaRdT1lH, s.via.t1lH, 0x07#8),
      (.viaRdT2cH, s.via.t2cH, 0x09#8), (.viaRdAcr, s.via.acr, 0x0B#8), (.viaRdIfr, s.via.ifr, 0x0D#8)],
    exec q.1 s = .next { s with result := .byte q.2.1 } ∧ encode q.1 = [q.2.2]

/-- R276, R278, R281, R260, R262, R265 (D23), R280: `SR`, `PCR` and `ORA_NH` are plain storage, and `IER` reads as stored. -/
def Obligations.ViaStorageSlots : Prop :=
  ∀ (s : State) (v : Byte),
    exec .viaRdSr s = .next { s with result := .byte s.via.sr } ∧
      exec .viaRdPcr s = .next { s with result := .byte s.via.pcr } ∧
      exec .viaRdIer s = .next { s with result := .byte s.via.ier } ∧
      exec .viaRdOraNh s = .next { s with result := .byte s.via.oraNh } ∧
      exec (.viaWrSr v) s = .next { s with via := { s.via with sr := v } } ∧
      exec (.viaWrPcr v) s = .next { s with via := { s.via with pcr := v } } ∧
      exec (.viaWrOraNh v) s = .next { s with via := { s.via with oraNh := v } }

/-- R266, R267, R284 (D21): a read of a port takes the output bits from the slot and the input bits from the lines, returns
the byte and keeps it in the slot. -/
def Obligations.ViaReadPorts : Prop :=
  ∀ s : State,
    (∃ v : Byte, (∀ j, j < 8 → v.getLsbD j =
        if s.via.ddrb.getLsbD j = true then s.via.orb.getLsbD j else s.via.portB.getLsbD j) ∧
      exec .viaRdIrb s = .next { s with via := { s.via with orb := v }, result := .byte v }) ∧
      ∃ v : Byte, (∀ j, j < 8 → v.getLsbD j =
          if s.via.ddra.getLsbD j = true then s.via.ora.getLsbD j else s.via.portA.getLsbD j) ∧
        exec .viaRdIra s = .next { s with via := { s.via with ora := v }, result := .byte v }

/-- R270, R274, R283 (flag bits D3): a read of a timer's low counter byte returns the live byte and clears that timer's flag,
and the summary bit with it when no flag is left. -/
def Obligations.ViaReadTimerLow : Prop :=
  ∀ s : State,
    (∃ f : Byte, FlagCleared 6 s.via.ifr f ∧
      exec .viaRdT1cL s = .next { s with via := { s.via with ifr := f }, result := .byte s.via.t1cL }) ∧
      ∃ f : Byte, FlagCleared 5 s.via.ifr f ∧
        exec .viaRdT2cL s = .next { s with via := { s.via with ifr := f }, result := .byte s.via.t2cL }

/-- R250, R251, R284: a write to an output register stores the byte and drives the pins that are outputs; the other pins keep
their level. -/
def Obligations.ViaWritePorts : Prop :=
  ∀ (s : State) (v : Byte),
    (∃ p : Byte, (∀ j, j < 8 → p.getLsbD j =
        if s.via.ddrb.getLsbD j = true then v.getLsbD j else s.via.portB.getLsbD j) ∧
      exec (.viaWrOrb v) s = .next { s with via := { s.via with orb := v, portB := p } }) ∧
      (∃ p : Byte, (∀ j, j < 8 → p.getLsbD j =
          if s.via.ddra.getLsbD j = true then v.getLsbD j else s.via.portA.getLsbD j) ∧
        exec (.viaWrOra v) s = .next { s with via := { s.via with ora := v, portA := p } }) ∧
      encode (.viaWrOrb v) = [0x10#8, v] ∧ encode (.viaWrOra v) = [0x11#8, v]

/-- R252, R253, R390 (D22): a write to a direction register moves no line. -/
def Obligations.ViaWriteDirection : Prop :=
  ∀ (s : State) (v : Byte),
    exec (.viaWrDdrb v) s = .next { s with via := { s.via with ddrb := v } } ∧
      exec (.viaWrDdra v) s = .next { s with via := { s.via with ddra := v } }

/-- R254: a write addressed to timer 1's low counter byte goes to the latch; the live counter stays. -/
def Obligations.ViaWriteCounterLowIsLatch : Prop :=
  ∀ (s : State) (v : Byte),
    exec (.viaWrT1cL v) s = .next { s with via := { s.via with t1lL := v } } ∧ encode (.viaWrT1cL v) = [0x14#8, v]

/-- R256, R257, R258, R263 (D23) and R261: plain stores, with no copy, no flag cleared and no event. -/
def Obligations.ViaWritePlain : Prop :=
  ∀ (s : State) (v : Byte),
    exec (.viaWrT1lL v) s = .next { s with via := { s.via with t1lL := v } } ∧
      exec (.viaWrT1lH v) s = .next { s with via := { s.via with t1lH := v } } ∧
      exec (.viaWrT2cL v) s = .next { s with via := { s.via with t2cL := v } } ∧
      exec (.viaWrAcr v) s = .next { s with via := { s.via with acr := v } } ∧
      exec (.viaWrIfr v) s = .next { s with via := { s.via with ifr := v } }

/-- R255, R259, R283 (flag bits D3): a write to a high counter byte. Timer 1: the latch's high byte, then both latch bytes into the counter;
timer 2: the live high byte. Each clears its timer's flag. -/
def Obligations.ViaWriteCounterHigh : Prop :=
  ∀ (s : State) (v : Byte),
    (∃ f : Byte, FlagCleared 6 s.via.ifr f ∧
      exec (.viaWrT1cH v) s = .next { s with via := { s.via with t1lH := v, t1cL := s.via.t1lL, t1cH := v, ifr := f } }) ∧
      ∃ f : Byte, FlagCleared 5 s.via.ifr f ∧
        exec (.viaWrT2cH v) s = .next { s with via := { s.via with t2cH := v, ifr := f } }

/-- R264, R109 (D29): the byte is stored as it is for a set command and complemented for a clear command, in place of the old
enables; bit 7 is then set; flags and events stay. -/
def Obligations.ViaWriteEnable : Prop :=
  ∀ (s : State) (v : Byte), ∃ e : Byte,
    e.getLsbD 7 = true ∧ (∀ j, j < 7 → e.getLsbD j = if v.getLsbD 7 = true then v.getLsbD j else !v.getLsbD j) ∧
      exec (.viaWrIer v) s = .next { s with via := { s.via with ier := e } }

/-! ## Whole-machine rules -/

/-- R37, R342, R343, R344, R280: the flag register changes only by a pulse, by the four clearing accesses and by a write to
it; the enables change only by a write to them. -/
def Obligations.InterruptRegistersChangeOnlyBy : Prop :=
  ∀ (i : Instr) (s t : State), exec i s = .next t →
    (t.via.ifr ≠ s.via.ifr → i = .clk ∨ i = .viaRdT1cL ∨ i = .viaRdT2cL ∨ (∃ v, i = .viaWrT1cH v) ∨
      (∃ v, i = .viaWrT2cH v) ∨ ∃ v, i = .viaWrIfr v) ∧
      (t.via.ier ≠ s.via.ier → ∃ v, i = .viaWrIer v)

/-- R346 (D27), R386: only a pulse notifies the Host; a read, a write, a drain and a clear emit nothing. -/
def Obligations.OnlyPulsesNotify : Prop :=
  ∀ (i : Instr) (s t : State), exec i s = .next t →
    (i ≠ .clk → t.via.irqTrace = s.via.irqTrace) ∧
      ∃ n, n ≤ 2 ∧ t.via.irqTrace = s.via.irqTrace ++ List.replicate n .irq

/-- R57, R137, R390 (D22, D33): port B moves only by a write to `ORB`; port A only by a write to `ORA` and by `BUS_READ`, alone
or in a pulse. -/
def Obligations.PortsMoveOnlyBy : Prop :=
  ∀ (i : Instr) (s t : State), exec i s = .next t →
    (t.via.portB ≠ s.via.portB → ∃ v, i = .viaWrOrb v) ∧
      (t.via.portA ≠ s.via.portA → (∃ v, i = .viaWrOra v) ∨ i = .busRead ∨
        i = .clk ∧ s.via.portB.extractLsb' 0 3 = 0b101#3)

/-- R39, R136, R340, R341 (D19): nothing clears the mark, and only a bus read or write with `sel` above 15 sets it. -/
def Obligations.FaultMarkIsSticky : Prop :=
  ∀ (i : Instr) (s t : State), exec i s = .next t →
    t.fault = s.fault ∨
      t.fault = some .indexOutOfRange ∧ 15 < s.psg.sel.toNat ∧
        (i = .busRead ∨ i = .busWrite ∨ i = .clk ∧
          (s.via.portB.extractLsb' 0 3 = 0b101#3 ∨ s.via.portB.extractLsb' 0 3 = 0b110#3))

/-- R354, R150 (c), R30, R32, R35, R29: generator state, `tick`, `sel`, the fault mark and the buffer have no read path. Two
blocks that agree on both register files and on the ports give the Host the same answer to every operation. -/
def Obligations.HiddenStateIsNotReadable : Prop :=
  ∀ (i : Instr) (s s' t t' : State), i ≠ .drain → s.psg.regs = s'.psg.regs → s.via = s'.via → s.result = s'.result →
    exec i s = .next t → exec i s' = .next t' → t.result = t'.result

/-- R36 "true after every operation", with R59 (b) and the buffer's form (log 12): every step keeps the invariant. -/
def Obligations.StepKeepsInvariant : Prop :=
  ∀ s t : State, Inv s → step s = .next t → Inv t

/-! ## The bus actions -/

/-- R132: the action changes nothing, its code is 0b100, and a pulse that performs it moves the timers, counts the tick and
runs the gated steps as always, whatever `sel` holds. -/
def Obligations.BusInactive : Prop :=
  ∀ s : State,
    exec .busInactive s = .next s ∧ encode .busInactive = [0b100#8] ∧
      (s.via.portB.extractLsb' 0 3 = 0b100#3 → ∃ t, exec .clk s = .next t ∧
        t = ({ s with via := s.via.step, psg := { s.psg with tick := s.psg.tick + 1#8 } } : State).gatedSteps ∧
        t.psg.regs = s.psg.regs ∧ t.psg.sel = s.psg.sel ∧ t.via.portA = s.via.portA ∧ t.fault = s.fault)

/-- R131, R62, R371 (D9, D15, D16): the action puts every PSG item at its value of R61 and touches nothing else. -/
def Obligations.BusReset : Prop :=
  ∀ s : State, exec .busReset s = .next { s with psg := State.reset.psg }

/-- R133, R71 (D20): with `sel` at most 15 the register goes to all eight lines of port A, whatever `DDRA` holds; the slot
`ORA` stays. -/
def Obligations.BusReadInRange : Prop :=
  ∀ (s : State) (r : Fin 16), s.psg.sel.toNat = r.val →
    exec .busRead s = .next { s with via := { s.via with portA := s.psg.regs[r] } }

/-- R134, R71: with `sel` at most 15 the action is exactly the direct write of port A to that register, with all its side
effects. -/
def Obligations.BusWriteInRange : Prop :=
  ∀ s : State, ∀ q ∈ psgWrites s.via.portA, s.psg.sel.toNat = q.2.val →
    exec .busWrite s = exec q.1 s ∧ ∃ t, exec .busWrite s = .next t ∧ t.psg.regs = s.psg.regs.set q.2 s.via.portA

/-- R136, R340 (D19): with `sel` above 15 a bus read or write accesses nothing and sets the mark; inside a pulse the registers
and port A stay and the rest of the pulse runs. -/
def Obligations.BusIndexFault : Prop :=
  ∀ s : State, 15 < s.psg.sel.toNat →
    exec .busRead s = .next { s with fault := some .indexOutOfRange } ∧
      exec .busWrite s = .next { s with fault := some .indexOutOfRange } ∧
      (s.via.portB.extractLsb' 0 3 = 0b101#3 ∨ s.via.portB.extractLsb' 0 3 = 0b110#3 → ∃ t, exec .clk s = .next t ∧
        t.fault = some .indexOutOfRange ∧ t.psg.regs = s.psg.regs ∧ t.via.portA = s.via.portA ∧
        t.psg.sel = s.psg.sel ∧ t.psg.tick = s.psg.tick + 1#8)

/-- R135 (D19): all eight bits of port A go to `sel`, even above 15, and nothing else changes. -/
def Obligations.BusLatch : Prop :=
  ∀ s : State, exec .busLatch s = .next { s with psg := { s.psg with sel := s.via.portA } }

/-- R237 (D40): the buffer and the cursor are returned and nothing changes; sample `a` of the array is cell `a`. -/
def Obligations.DrainReturnsTheBuffer : Prop :=
  ∀ s : State, exec .drain s = .next { s with result := .drained s.psg.buf s.psg.cursor } ∧
    (Memory.samples Config.bufCap s.psg.buf).length = Config.bufCap ∧
    ∀ a, a < Config.bufCap → (Memory.samples Config.bufCap s.psg.buf)[a]? = some (Memory.read s.psg.buf a)

/-! ## The clock pulse -/

/-- R325, R86: with port B bit 2 low the pulse is `VIA_STEP` and the full reset and nothing else. -/
def Obligations.PulseInReset : Prop :=
  ∀ s : State, s.via.portB.getLsbD 2 = false →
    exec .clk s = .next { s with via := s.via.step, psg := State.reset.psg }

/-- R320 to R324, R130 (D9, D10): the order inside a pulse outside reset. `VIA_STEP`; the bus action that port B decodes to;
the tick; on a 16th pulse the synthesis step; on a 256th, after it, the envelope step of the shape code now in register 13. -/
def Obligations.PulseOrder : Prop :=
  ∀ s : State, s.via.portB.getLsbD 2 = true →
    ∃ (i : Instr) (a b : State), decode .bus3 [s.via.portB] = .ok (i, []) ∧ exec i { s with via := s.via.step } = .next a ∧
      b = { a with psg := { a.psg with tick := s.psg.tick + 1#8 } } ∧
      ((s.psg.tick.toNat + 1) % 16 ≠ 0 → exec .clk s = .next b) ∧
      ((s.psg.tick.toNat + 1) % 16 = 0 → (s.psg.tick.toNat + 1) % 256 ≠ 0 → exec .clk s = .next b.synthStep) ∧
      ((s.psg.tick.toNat + 1) % 256 = 0 →
        ∃ j, decode .fields [a.psg.regs[13]] = .ok (j, []) ∧ exec .clk s = exec j b.synthStep)

/-- R300, R301, R302 (D24; ACR bit 6 is D3): in every pulse each timer counts down by one, from 0 to 65535, but for timer 1's reload from its
latch at an expiry in continuous mode. -/
def Obligations.PulseMovesTheTimers : Prop :=
  ∀ s : State, ∃ t, exec .clk s = .next t ∧
    t.via.timer1 = (if s.via.timer1 = 1 ∧ s.via.acr.getLsbD 6 = true then s.via.latch1
      else if s.via.timer1 = 0 then 65535 else s.via.timer1 - 1) ∧
    t.via.timer2 = if s.via.timer2 = 0 then 65535 else s.via.timer2 - 1

/-- R282, R302, R303, R343, R345 (D26; bits D3): the flags and events of a pulse. A timer that counts to 0 sets its flag. Timer 1 raises
in continuous mode at every expiry, else only when its flag was clear; timer 2 only when its flag was clear. A raise with
the enable set sets the summary bit and emits one event. -/
def Obligations.PulseRaisesFlags : Prop :=
  ∀ s : State, ∃ (t : State) (r1 r2 : Bool), exec .clk s = .next t ∧
    (r1 = true ↔ s.via.timer1 = 1 ∧ (s.via.acr.getLsbD 6 = true ∨ s.via.ifr.getLsbD 6 = false)) ∧
    (r2 = true ↔ s.via.timer2 = 1 ∧ s.via.ifr.getLsbD 5 = false) ∧
    (∀ j, j < 8 → (t.via.ifr.getLsbD j = true ↔ s.via.ifr.getLsbD j = true ∨ j = 6 ∧ s.via.timer1 = 1 ∨
      j = 5 ∧ s.via.timer2 = 1 ∨
      j = 7 ∧ (r1 = true ∧ s.via.ier.getLsbD 6 = true ∨ r2 = true ∧ s.via.ier.getLsbD 5 = true))) ∧
    t.via.irqTrace = s.via.irqTrace ++ List.replicate
      ((if r1 = true ∧ s.via.ier.getLsbD 6 = true then 1 else 0) +
        if r2 = true ∧ s.via.ier.getLsbD 5 = true then 1 else 0) .irq

/-- The frame of a pulse on the VIA side (R300, R306, R320): every register but the two counters and the flags, port B, what
was returned and what is still to perform. -/
def Obligations.PulseKeepsVia : Prop :=
  ∀ s : State, ∃ t, exec .clk s = .next t ∧
    t.via.orb = s.via.orb ∧ t.via.ora = s.via.ora ∧ t.via.ddrb = s.via.ddrb ∧ t.via.ddra = s.via.ddra ∧
    t.via.t1lL = s.via.t1lL ∧ t.via.t1lH = s.via.t1lH ∧ t.via.sr = s.via.sr ∧ t.via.acr = s.via.acr ∧
    t.via.pcr = s.via.pcr ∧ t.via.ier = s.via.ier ∧ t.via.oraNh = s.via.oraNh ∧ t.via.portB = s.via.portB ∧
    t.result = s.result ∧ t.inbox = s.inbox

/-- The frame of a pulse on the PSG side (R320 to R324, R221 (d)): outside reset the tick counts, `sel` stays but for a latch,
and every cell of the buffer but the one at the cursor stays. On a pulse that is no 16th, the buffer, the cursor, the draws,
the signals and the envelope's level stay. -/
def Obligations.PulseKeepsPsg : Prop :=
  ∀ s : State, Inv s → s.via.portB.getLsbD 2 = true → ∃ t, exec .clk s = .next t ∧
    t.psg.tick = s.psg.tick + 1#8 ∧ (s.via.portB.extractLsb' 0 3 ≠ 0b111#3 → t.psg.sel = s.psg.sel) ∧
    (∀ a, a ≠ s.psg.cursor → Memory.read t.psg.buf a = Memory.read s.psg.buf a) ∧
    ((s.psg.tick.toNat + 1) % 16 ≠ 0 → t.psg.buf = s.psg.buf ∧ t.psg.cursor = s.psg.cursor ∧ t.draws = s.draws ∧
      t.psg.env.value = s.psg.env.value ∧ t.psg.noise.signal = s.psg.noise.signal ∧
      ∀ c : Fin 3, (t.psg.tone[c]).signal = (s.psg.tone[c]).signal)

/-! ## Synthesis and envelope -/

/-- R190: in a synthesis step each tone channel counts down by one and, on reaching zero, reloads from its period, at least
1, and inverts its signal; the three channels do not interact. -/
def Obligations.SynthesisStepMovesTheTones : Prop :=
  ∀ (s : State) (c : Fin 3), 1 ≤ (s.psg.tone[c]).counter.toNat →
    (s.synthStep.psg.tone[c]).period = (s.psg.tone[c]).period ∧
      ((s.psg.tone[c]).counter.toNat = 1 →
        (s.synthStep.psg.tone[c]).counter.toNat = effNat (s.psg.tone[c]).period.toNat ∧
          (s.synthStep.psg.tone[c]).signal = !(s.psg.tone[c]).signal) ∧
      ((s.psg.tone[c]).counter.toNat ≠ 1 →
        (s.synthStep.psg.tone[c]).counter.toNat = (s.psg.tone[c]).counter.toNat - 1 ∧
          (s.synthStep.psg.tone[c]).signal = (s.psg.tone[c]).signal)

/-- R191, R192 (D32, log 3): in a synthesis step the noise divider counts down by one and, on reaching zero, reloads and takes
the next bit of the stream, whatever that is; between reloads no bit is drawn. -/
def Obligations.SynthesisStepDrawsNoise : Prop :=
  ∀ s : State, 1 ≤ s.psg.noise.counter.toNat →
    s.synthStep.psg.noise.period = s.psg.noise.period ∧
      (s.psg.noise.counter.toNat = 1 →
        s.synthStep.psg.noise.counter.toNat = effNat s.psg.noise.period.toNat ∧
          s.synthStep.psg.noise.signal = Config.noiseSource s.draws ∧ s.synthStep.draws = s.draws + 1) ∧
      (s.psg.noise.counter.toNat ≠ 1 →
        s.synthStep.psg.noise.counter.toNat = s.psg.noise.counter.toNat - 1 ∧
          s.synthStep.psg.noise.signal = s.psg.noise.signal ∧ s.synthStep.draws = s.draws)

/-- R230 to R236, R195 (D4, D7, D10, D18, D36): a synthesis step ends with one sample, the mix of the signals after this
step's toggles, reduced modulo 256, put at the cursor, which moves on and wraps. Nothing else of the block changes but the
dividers and the draw count. -/
def Obligations.SynthesisStepAppendsTheMix : Prop :=
  ∀ s : State, Inv s →
    (Memory.read s.synthStep.psg.buf s.psg.cursor).toNat = sampleNat Config.mixGain s.synthStep.psg ∧
      (∀ a, a ≠ s.psg.cursor → Memory.read s.synthStep.psg.buf a = Memory.read s.psg.buf a) ∧
      s.synthStep.psg.cursor = (s.psg.cursor + 1) % Config.bufCap ∧
      s.synthStep.psg.regs = s.psg.regs ∧ s.synthStep.psg.sel = s.psg.sel ∧ s.synthStep.psg.env = s.psg.env ∧
      s.synthStep.psg.tick = s.psg.tick ∧ s.synthStep.via = s.via ∧ s.synthStep.fault = s.fault ∧
      s.synthStep.result = s.result ∧ s.synthStep.inbox = s.inbox

/-- R212 to R218, R107, R211 (D5, D11, D12): an envelope step under each of the sixteen shape codes: the count and reload, the
number of the period, and the level by the five cases. Everything else stays. -/
def Obligations.EnvelopeStepByCode : Prop :=
  ∀ s : State, s.psg.env.Inv → ∀ q ∈ shapeTable, ∃ e : Envelope,
    exec q.1 s = .next { s with psg := { s.psg with env := e } } ∧
      (s.psg.env.remaining.toNat = 1 →
        e.remaining.toNat = s.psg.periodLength ∧ e.periodCounter = s.psg.env.periodCounter + 1) ∧
      (s.psg.env.remaining.toNat ≠ 1 →
        e.remaining.toNat = s.psg.env.remaining.toNat - 1 ∧ e.periodCounter = s.psg.env.periodCounter) ∧
      e.value.toNat = q.2.level (positionNat s.psg.periodLength e.remaining.toNat) e.periodCounter

/-- R221 (e), (f), R215, R216: with `continue` 0, or with `hold` 1, the level is one constant from the first step of the second
period on, and the generator never leaves that. -/
def Obligations.EnvelopeSettles : Prop :=
  ∀ s : State, ∀ q ∈ shapeTable, q.2.cont = false ∨ q.2.hold = true →
    2 ≤ s.psg.env.periodCounter ∨ 1 ≤ s.psg.env.periodCounter ∧ s.psg.env.remaining = 1#17 →
    ∃ t, exec q.1 s = .next t ∧ t.psg.env.value.toNat = q.2.settled ∧ 2 ≤ t.psg.env.periodCounter

/-! ## Runs of pulses -/

/-- R304 (a), R305 (D24; ACR and IFR bit 6 are D3): timer 1 holding `n` expires at the `n`-th pulse, the 65536th for 0, and not before. Then its flag is
set and its counter is 0, or the latch in continuous mode. -/
def Obligations.TimerOneCountsToExpiry : Prop :=
  ∀ (s : State) (n : Nat), n = (if s.via.timer1 = 0 then 65536 else s.via.timer1) →
    (∀ k, k < n → ∃ u, pulses k s = .next u ∧ u.via.timer1 = (n - k) % 65536 ∧
      u.via.ifr.getLsbD 6 = s.via.ifr.getLsbD 6) ∧
      ∃ t, pulses n s = .next t ∧ t.via.ifr.getLsbD 6 = true ∧
        t.via.timer1 = if s.via.acr.getLsbD 6 = true then s.via.latch1 else 0

/-- R304 (a), (d), R303, R306 (D24; IFR bit 5 is D3): timer 2 likewise, with no reload in any mode. -/
def Obligations.TimerTwoCountsToExpiry : Prop :=
  ∀ (s : State) (n : Nat), n = (if s.via.timer2 = 0 then 65536 else s.via.timer2) →
    (∀ k, k < n → ∃ u, pulses k s = .next u ∧ u.via.timer2 = (n - k) % 65536 ∧
      u.via.ifr.getLsbD 5 = s.via.ifr.getLsbD 5) ∧
      ∃ t, pulses n s = .next t ∧ t.via.ifr.getLsbD 5 = true ∧ t.via.timer2 = 0

/-- R131 (a), R372, R377, R300: while reset is held every pulse resets the PSG again, both timers count on, and nothing releases
it. Timer 2 counts down by one a pulse modulo 65536, and so does timer 1 in one-shot mode; in continuous mode timer 1 counts
down to its first expiry, is then its latch, and from there repeats with the latch's period (R302, R304; ACR bit 6 is D3). -/
def Obligations.HeldResetRepeats : Prop :=
  ∀ (s : State) (n : Nat), s.via.portB.getLsbD 2 = false →
    ∃ t, pulses (n + 1) s = .next t ∧ t.psg = State.reset.psg ∧ t.via.portB = s.via.portB ∧ t.via.portA = s.via.portA ∧
      t.fault = s.fault ∧ t.draws = s.draws ∧ (t.via.timer2 + (n + 1)) % 65536 = s.via.timer2 ∧
      (s.via.acr.getLsbD 6 = false → (t.via.timer1 + (n + 1)) % 65536 = s.via.timer1) ∧
      (s.via.acr.getLsbD 6 = true → t.via.timer1 =
        if n + 1 < expiryIn s.via.timer1 then expiryIn s.via.timer1 - (n + 1)
        else (expiryIn s.via.latch1 - (n + 1 - expiryIn s.via.timer1) % expiryIn s.via.latch1) % 65536)

/-- R194 (a), (d), R327: with the bus inactive, a tone channel whose counter has just been loaded toggles exactly once every
`16 * eff(period)` pulses: a square wave. -/
def Obligations.ToneHalfPeriod : Prop :=
  ∀ (s : State) (c : Fin 3) (k : Nat), s.via.portB.extractLsb' 0 3 = 0b100#3 → s.psg.tick.toNat % 16 = 0 →
    (s.psg.tone[c]).counter.toNat = effNat (s.psg.tone[c]).period.toNat →
    ∃ t, pulses (16 * k) s = .next t ∧ (t.psg.tone[c]).period = (s.psg.tone[c]).period ∧
      (t.psg.tone[c]).signal =
        ((s.psg.tone[c]).signal ^^ decide (k / effNat (s.psg.tone[c]).period.toNat % 2 = 1))

/-- R235, R322, R327 (D9): outside reset, "whatever the bus does", the cursor moves by one for every 16 pulses, counted from
where the tick stands, and wraps at the capacity; the tick counts every pulse. But for a bus write the registers stay, and
but for a latch `sel` stays, so with the bus inactive both do. -/
def Obligations.SampleEverySixteenPulses : Prop :=
  ∀ (s : State) (n : Nat), s.via.portB.getLsbD 2 = true → s.psg.cursor < Config.bufCap →
    ∃ t, pulses n s = .next t ∧ t.psg.cursor = (s.psg.cursor + (s.psg.tick.toNat % 16 + n) / 16) % Config.bufCap ∧
      t.psg.tick.toNat = (s.psg.tick.toNat + n) % 256 ∧
      (s.via.portB.extractLsb' 0 3 ≠ 0b110#3 → t.psg.regs = s.psg.regs) ∧
      (s.via.portB.extractLsb' 0 3 ≠ 0b111#3 → t.psg.sel = s.psg.sel)

/-- R212 (b), (d), R211, R221 (b) (D12): from a restart, an envelope period lasts exactly `L` envelope steps. After `k + 1` steps
under any shape code, `k mod L` steps of the current period are spent, and it is period number `k / L + 1`. -/
def Obligations.EnvelopePeriodCount : Prop :=
  ∀ (p : Psg) (code : BitVec 4) (k : Nat), p.env.remaining = 1#17 → p.env.periodCounter = 0 →
    ((Psg.envStep code)^[k + 1] p).env.remaining.toNat = p.periodLength - k % p.periodLength ∧
      ((Psg.envStep code)^[k + 1] p).env.periodCounter = k / p.periodLength + 1
end

