-- ==== Sys2Proof/Laws/Decode.lean ====
section
/-! SUPPORT. The decoder's index maps against the encoder: what each map answers encodes to, and that it is an operation of
an agent (R112, R40). -/

namespace Sys2Proof

/-- The sixteen register indices. -/
theorem index_cases : ∀ n : BitVec 4, n = 0 ∨ n = 1 ∨ n = 2 ∨ n = 3 ∨ n = 4 ∨ n = 5 ∨ n = 6 ∨ n = 7 ∨ n = 8 ∨ n = 9 ∨
    n = 10 ∨ n = 11 ∨ n = 12 ∨ n = 13 ∨ n = 14 ∨ n = 15 := by decide

theorem encode_viaReadOf : ∀ idx : BitVec 4, encode (viaReadOf idx) = [0x0#4 ++ idx] := by decide

theorem encode_psgReadOf : ∀ idx : BitVec 4, encode (psgReadOf idx) = [0x4#4 ++ idx] := by decide

theorem encodeWord_shapeOf : ∀ idx : BitVec 4, encodeWord (shapeOf idx) = 0x0#4 ++ idx := by decide

theorem encode_viaWriteOf (idx : BitVec 4) (v : Byte) : encode (viaWriteOf idx v) = [0x1#4 ++ idx, v] := by
  rcases index_cases idx with h | h | h | h | h | h | h | h | h | h | h | h | h | h | h | h <;> subst h <;> rfl

theorem encode_psgWriteOf (idx : BitVec 4) (v : Byte) : encode (psgWriteOf idx v) = [0x5#4 ++ idx, v] := by
  rcases index_cases idx with h | h | h | h | h | h | h | h | h | h | h | h | h | h | h | h <;> subst h <;> rfl

theorem wellFormed_readOf : ∀ idx : BitVec 4, (viaReadOf idx).wellFormed = true ∧ (psgReadOf idx).wellFormed = true := by
  decide

theorem wellFormed_writeOf (idx : BitVec 4) (v : Byte) :
    (viaWriteOf idx v).wellFormed = true ∧ (psgWriteOf idx v).wellFormed = true := by
  rcases index_cases idx with h | h | h | h | h | h | h | h | h | h | h | h | h | h | h | h <;> subst h <;> exact ⟨rfl, rfl⟩

end Sys2Proof
end

