-- ==== Sys2Proof/Laws/State.lean ====
section
/-! SUPPORT. One lemma per field and update of the state, and the frames of the VIA's and the PSG's shared updates, so that
no later proof unfolds a record update. -/

namespace Sys2Proof.Machine

/-! ## The state -/

@[simp] theorem State.setPsg_psg (s : State) (p : Psg) : (s.setPsg p).psg = p := rfl
@[simp] theorem State.setPsg_via (s : State) (p : Psg) : (s.setPsg p).via = s.via := rfl
@[simp] theorem State.setPsg_fault (s : State) (p : Psg) : (s.setPsg p).fault = s.fault := rfl
@[simp] theorem State.setPsg_result (s : State) (p : Psg) : (s.setPsg p).result = s.result := rfl
@[simp] theorem State.setPsg_draws (s : State) (p : Psg) : (s.setPsg p).draws = s.draws := rfl
@[simp] theorem State.setPsg_inbox (s : State) (p : Psg) : (s.setPsg p).inbox = s.inbox := rfl

@[simp] theorem State.setVia_psg (s : State) (x : Via) : (s.setVia x).psg = s.psg := rfl
@[simp] theorem State.setVia_via (s : State) (x : Via) : (s.setVia x).via = x := rfl
@[simp] theorem State.setVia_fault (s : State) (x : Via) : (s.setVia x).fault = s.fault := rfl
@[simp] theorem State.setVia_result (s : State) (x : Via) : (s.setVia x).result = s.result := rfl
@[simp] theorem State.setVia_draws (s : State) (x : Via) : (s.setVia x).draws = s.draws := rfl
@[simp] theorem State.setVia_inbox (s : State) (x : Via) : (s.setVia x).inbox = s.inbox := rfl

@[simp] theorem State.setResult_psg (s : State) (r : Result) : (s.setResult r).psg = s.psg := rfl
@[simp] theorem State.setResult_via (s : State) (r : Result) : (s.setResult r).via = s.via := rfl
@[simp] theorem State.setResult_fault (s : State) (r : Result) : (s.setResult r).fault = s.fault := rfl
@[simp] theorem State.setResult_result (s : State) (r : Result) : (s.setResult r).result = r := rfl
@[simp] theorem State.setResult_draws (s : State) (r : Result) : (s.setResult r).draws = s.draws := rfl
@[simp] theorem State.setResult_inbox (s : State) (r : Result) : (s.setResult r).inbox = s.inbox := rfl

@[simp] theorem State.setDraws_psg (s : State) (n : Nat) : (s.setDraws n).psg = s.psg := rfl
@[simp] theorem State.setDraws_via (s : State) (n : Nat) : (s.setDraws n).via = s.via := rfl
@[simp] theorem State.setDraws_fault (s : State) (n : Nat) : (s.setDraws n).fault = s.fault := rfl
@[simp] theorem State.setDraws_result (s : State) (n : Nat) : (s.setDraws n).result = s.result := rfl
@[simp] theorem State.setDraws_draws (s : State) (n : Nat) : (s.setDraws n).draws = n := rfl
@[simp] theorem State.setDraws_inbox (s : State) (n : Nat) : (s.setDraws n).inbox = s.inbox := rfl

@[simp] theorem State.setInbox_psg (s : State) (l : List Byte) : (s.setInbox l).psg = s.psg := rfl
@[simp] theorem State.setInbox_via (s : State) (l : List Byte) : (s.setInbox l).via = s.via := rfl
@[simp] theorem State.setInbox_fault (s : State) (l : List Byte) : (s.setInbox l).fault = s.fault := rfl
@[simp] theorem State.setInbox_result (s : State) (l : List Byte) : (s.setInbox l).result = s.result := rfl
@[simp] theorem State.setInbox_draws (s : State) (l : List Byte) : (s.setInbox l).draws = s.draws := rfl
@[simp] theorem State.setInbox_inbox (s : State) (l : List Byte) : (s.setInbox l).inbox = l := rfl

@[simp] theorem State.raiseFault_psg (s : State) (k : Fault) : (s.raiseFault k).psg = s.psg := rfl
@[simp] theorem State.raiseFault_via (s : State) (k : Fault) : (s.raiseFault k).via = s.via := rfl
@[simp] theorem State.raiseFault_fault (s : State) (k : Fault) : (s.raiseFault k).fault = some k := rfl
@[simp] theorem State.raiseFault_result (s : State) (k : Fault) : (s.raiseFault k).result = s.result := rfl
@[simp] theorem State.raiseFault_draws (s : State) (k : Fault) : (s.raiseFault k).draws = s.draws := rfl
@[simp] theorem State.raiseFault_inbox (s : State) (k : Fault) : (s.raiseFault k).inbox = s.inbox := rfl

@[simp] theorem State.returnByte_psg (s : State) (v : Byte) : (s.returnByte v).psg = s.psg := rfl
@[simp] theorem State.returnByte_via (s : State) (v : Byte) : (s.returnByte v).via = s.via := rfl
@[simp] theorem State.returnByte_fault (s : State) (v : Byte) : (s.returnByte v).fault = s.fault := rfl
@[simp] theorem State.returnByte_result (s : State) (v : Byte) : (s.returnByte v).result = .byte v := rfl
@[simp] theorem State.returnByte_draws (s : State) (v : Byte) : (s.returnByte v).draws = s.draws := rfl
@[simp] theorem State.returnByte_inbox (s : State) (v : Byte) : (s.returnByte v).inbox = s.inbox := rfl

/-! ## The PSG -/

@[simp] theorem Psg.store_regs (p : Psg) (i : Fin 16) (v : Byte) : (p.store i v).regs = p.regs.set i v := rfl
@[simp] theorem Psg.store_sel (p : Psg) (i : Fin 16) (v : Byte) : (p.store i v).sel = p.sel := rfl
@[simp] theorem Psg.store_tone (p : Psg) (i : Fin 16) (v : Byte) : (p.store i v).tone = p.tone := rfl
@[simp] theorem Psg.store_noise (p : Psg) (i : Fin 16) (v : Byte) : (p.store i v).noise = p.noise := rfl
@[simp] theorem Psg.store_env (p : Psg) (i : Fin 16) (v : Byte) : (p.store i v).env = p.env := rfl
@[simp] theorem Psg.store_buf (p : Psg) (i : Fin 16) (v : Byte) : (p.store i v).buf = p.buf := rfl
@[simp] theorem Psg.store_cursor (p : Psg) (i : Fin 16) (v : Byte) : (p.store i v).cursor = p.cursor := rfl
@[simp] theorem Psg.store_tick (p : Psg) (i : Fin 16) (v : Byte) : (p.store i v).tick = p.tick := rfl

@[simp] theorem Psg.reloadTone_regs (p : Psg) (c : Fin 3) : (p.reloadTone c).regs = p.regs := rfl
@[simp] theorem Psg.reloadTone_sel (p : Psg) (c : Fin 3) : (p.reloadTone c).sel = p.sel := rfl
@[simp] theorem Psg.reloadTone_noise (p : Psg) (c : Fin 3) : (p.reloadTone c).noise = p.noise := rfl
@[simp] theorem Psg.reloadTone_env (p : Psg) (c : Fin 3) : (p.reloadTone c).env = p.env := rfl
@[simp] theorem Psg.reloadTone_buf (p : Psg) (c : Fin 3) : (p.reloadTone c).buf = p.buf := rfl
@[simp] theorem Psg.reloadTone_cursor (p : Psg) (c : Fin 3) : (p.reloadTone c).cursor = p.cursor := rfl
@[simp] theorem Psg.reloadTone_tick (p : Psg) (c : Fin 3) : (p.reloadTone c).tick = p.tick := rfl

@[simp] theorem Psg.reloadNoise_regs (p : Psg) : (p.reloadNoise).regs = p.regs := rfl
@[simp] theorem Psg.reloadNoise_sel (p : Psg) : (p.reloadNoise).sel = p.sel := rfl
@[simp] theorem Psg.reloadNoise_tone (p : Psg) : (p.reloadNoise).tone = p.tone := rfl
@[simp] theorem Psg.reloadNoise_env (p : Psg) : (p.reloadNoise).env = p.env := rfl
@[simp] theorem Psg.reloadNoise_buf (p : Psg) : (p.reloadNoise).buf = p.buf := rfl
@[simp] theorem Psg.reloadNoise_cursor (p : Psg) : (p.reloadNoise).cursor = p.cursor := rfl
@[simp] theorem Psg.reloadNoise_tick (p : Psg) : (p.reloadNoise).tick = p.tick := rfl

@[simp] theorem Psg.restartEnvelope_regs (p : Psg) : (p.restartEnvelope).regs = p.regs := rfl
@[simp] theorem Psg.restartEnvelope_sel (p : Psg) : (p.restartEnvelope).sel = p.sel := rfl
@[simp] theorem Psg.restartEnvelope_tone (p : Psg) : (p.restartEnvelope).tone = p.tone := rfl
@[simp] theorem Psg.restartEnvelope_noise (p : Psg) : (p.restartEnvelope).noise = p.noise := rfl
@[simp] theorem Psg.restartEnvelope_buf (p : Psg) : (p.restartEnvelope).buf = p.buf := rfl
@[simp] theorem Psg.restartEnvelope_cursor (p : Psg) : (p.restartEnvelope).cursor = p.cursor := rfl
@[simp] theorem Psg.restartEnvelope_tick (p : Psg) : (p.restartEnvelope).tick = p.tick := rfl

@[simp] theorem Psg.stepDividers_regs (p : Psg) (b : Bool) : (p.stepDividers b).regs = p.regs := rfl
@[simp] theorem Psg.stepDividers_sel (p : Psg) (b : Bool) : (p.stepDividers b).sel = p.sel := rfl
@[simp] theorem Psg.stepDividers_env (p : Psg) (b : Bool) : (p.stepDividers b).env = p.env := rfl
@[simp] theorem Psg.stepDividers_buf (p : Psg) (b : Bool) : (p.stepDividers b).buf = p.buf := rfl
@[simp] theorem Psg.stepDividers_cursor (p : Psg) (b : Bool) : (p.stepDividers b).cursor = p.cursor := rfl
@[simp] theorem Psg.stepDividers_tick (p : Psg) (b : Bool) : (p.stepDividers b).tick = p.tick := rfl

@[simp] theorem Psg.append_regs (p : Psg) (n : Nat) (v : Byte) : (p.append n v).regs = p.regs := rfl
@[simp] theorem Psg.append_sel (p : Psg) (n : Nat) (v : Byte) : (p.append n v).sel = p.sel := rfl
@[simp] theorem Psg.append_tone (p : Psg) (n : Nat) (v : Byte) : (p.append n v).tone = p.tone := rfl
@[simp] theorem Psg.append_noise (p : Psg) (n : Nat) (v : Byte) : (p.append n v).noise = p.noise := rfl
@[simp] theorem Psg.append_env (p : Psg) (n : Nat) (v : Byte) : (p.append n v).env = p.env := rfl
@[simp] theorem Psg.append_tick (p : Psg) (n : Nat) (v : Byte) : (p.append n v).tick = p.tick := rfl

@[simp] theorem Psg.envStep_regs (p : Psg) (c : BitVec 4) : (p.envStep c).regs = p.regs := rfl
@[simp] theorem Psg.envStep_sel (p : Psg) (c : BitVec 4) : (p.envStep c).sel = p.sel := rfl
@[simp] theorem Psg.envStep_tone (p : Psg) (c : BitVec 4) : (p.envStep c).tone = p.tone := rfl
@[simp] theorem Psg.envStep_noise (p : Psg) (c : BitVec 4) : (p.envStep c).noise = p.noise := rfl
@[simp] theorem Psg.envStep_buf (p : Psg) (c : BitVec 4) : (p.envStep c).buf = p.buf := rfl
@[simp] theorem Psg.envStep_cursor (p : Psg) (c : BitVec 4) : (p.envStep c).cursor = p.cursor := rfl
@[simp] theorem Psg.envStep_tick (p : Psg) (c : BitVec 4) : (p.envStep c).tick = p.tick := rfl

/-! ## The VIA -/

@[simp] theorem Via.emitIrq_orb (x : Via) : x.emitIrq.orb = x.orb := rfl
@[simp] theorem Via.emitIrq_ora (x : Via) : x.emitIrq.ora = x.ora := rfl
@[simp] theorem Via.emitIrq_ddrb (x : Via) : x.emitIrq.ddrb = x.ddrb := rfl
@[simp] theorem Via.emitIrq_ddra (x : Via) : x.emitIrq.ddra = x.ddra := rfl
@[simp] theorem Via.emitIrq_t1cL (x : Via) : x.emitIrq.t1cL = x.t1cL := rfl
@[simp] theorem Via.emitIrq_t1cH (x : Via) : x.emitIrq.t1cH = x.t1cH := rfl
@[simp] theorem Via.emitIrq_t1lL (x : Via) : x.emitIrq.t1lL = x.t1lL := rfl
@[simp] theorem Via.emitIrq_t1lH (x : Via) : x.emitIrq.t1lH = x.t1lH := rfl
@[simp] theorem Via.emitIrq_t2cL (x : Via) : x.emitIrq.t2cL = x.t2cL := rfl
@[simp] theorem Via.emitIrq_t2cH (x : Via) : x.emitIrq.t2cH = x.t2cH := rfl
@[simp] theorem Via.emitIrq_sr (x : Via) : x.emitIrq.sr = x.sr := rfl
@[simp] theorem Via.emitIrq_acr (x : Via) : x.emitIrq.acr = x.acr := rfl
@[simp] theorem Via.emitIrq_pcr (x : Via) : x.emitIrq.pcr = x.pcr := rfl
@[simp] theorem Via.emitIrq_ifr (x : Via) : x.emitIrq.ifr = x.ifr := rfl
@[simp] theorem Via.emitIrq_ier (x : Via) : x.emitIrq.ier = x.ier := rfl
@[simp] theorem Via.emitIrq_oraNh (x : Via) : x.emitIrq.oraNh = x.oraNh := rfl
@[simp] theorem Via.emitIrq_portA (x : Via) : x.emitIrq.portA = x.portA := rfl
@[simp] theorem Via.emitIrq_portB (x : Via) : x.emitIrq.portB = x.portB := rfl
@[simp] theorem Via.emitIrq_irqTrace (x : Via) : x.emitIrq.irqTrace = x.irqTrace ++ [.irq] := rfl

@[simp] theorem Via.clearFlag_orb (m : Byte) (x : Via) : (Via.clearFlag m x).orb = x.orb := rfl
@[simp] theorem Via.clearFlag_ora (m : Byte) (x : Via) : (Via.clearFlag m x).ora = x.ora := rfl
@[simp] theorem Via.clearFlag_ddrb (m : Byte) (x : Via) : (Via.clearFlag m x).ddrb = x.ddrb := rfl
@[simp] theorem Via.clearFlag_ddra (m : Byte) (x : Via) : (Via.clearFlag m x).ddra = x.ddra := rfl
@[simp] theorem Via.clearFlag_t1cL (m : Byte) (x : Via) : (Via.clearFlag m x).t1cL = x.t1cL := rfl
@[simp] theorem Via.clearFlag_t1cH (m : Byte) (x : Via) : (Via.clearFlag m x).t1cH = x.t1cH := rfl
@[simp] theorem Via.clearFlag_t1lL (m : Byte) (x : Via) : (Via.clearFlag m x).t1lL = x.t1lL := rfl
@[simp] theorem Via.clearFlag_t1lH (m : Byte) (x : Via) : (Via.clearFlag m x).t1lH = x.t1lH := rfl
@[simp] theorem Via.clearFlag_t2cL (m : Byte) (x : Via) : (Via.clearFlag m x).t2cL = x.t2cL := rfl
@[simp] theorem Via.clearFlag_t2cH (m : Byte) (x : Via) : (Via.clearFlag m x).t2cH = x.t2cH := rfl
@[simp] theorem Via.clearFlag_sr (m : Byte) (x : Via) : (Via.clearFlag m x).sr = x.sr := rfl
@[simp] theorem Via.clearFlag_acr (m : Byte) (x : Via) : (Via.clearFlag m x).acr = x.acr := rfl
@[simp] theorem Via.clearFlag_pcr (m : Byte) (x : Via) : (Via.clearFlag m x).pcr = x.pcr := rfl
@[simp] theorem Via.clearFlag_ifr (m : Byte) (x : Via) : (Via.clearFlag m x).ifr = clearedFlags m x.ifr := rfl
@[simp] theorem Via.clearFlag_ier (m : Byte) (x : Via) : (Via.clearFlag m x).ier = x.ier := rfl
@[simp] theorem Via.clearFlag_oraNh (m : Byte) (x : Via) : (Via.clearFlag m x).oraNh = x.oraNh := rfl
@[simp] theorem Via.clearFlag_portA (m : Byte) (x : Via) : (Via.clearFlag m x).portA = x.portA := rfl
@[simp] theorem Via.clearFlag_portB (m : Byte) (x : Via) : (Via.clearFlag m x).portB = x.portB := rfl
@[simp] theorem Via.clearFlag_irqTrace (m : Byte) (x : Via) : (Via.clearFlag m x).irqTrace = x.irqTrace := rfl

@[simp] theorem Via.raiseFlag_orb (m : Byte) (x : Via) : (Via.raiseFlag m x).orb = x.orb := by
  unfold Via.raiseFlag; split <;> rfl
@[simp] theorem Via.raiseFlag_ora (m : Byte) (x : Via) : (Via.raiseFlag m x).ora = x.ora := by
  unfold Via.raiseFlag; split <;> rfl
@[simp] theorem Via.raiseFlag_ddrb (m : Byte) (x : Via) : (Via.raiseFlag m x).ddrb = x.ddrb := by
  unfold Via.raiseFlag; split <;> rfl
@[simp] theorem Via.raiseFlag_ddra (m : Byte) (x : Via) : (Via.raiseFlag m x).ddra = x.ddra := by
  unfold Via.raiseFlag; split <;> rfl
@[simp] theorem Via.raiseFlag_t1cL (m : Byte) (x : Via) : (Via.raiseFlag m x).t1cL = x.t1cL := by
  unfold Via.raiseFlag; split <;> rfl
@[simp] theorem Via.raiseFlag_t1cH (m : Byte) (x : Via) : (Via.raiseFlag m x).t1cH = x.t1cH := by
  unfold Via.raiseFlag; split <;> rfl
@[simp] theorem Via.raiseFlag_t1lL (m : Byte) (x : Via) : (Via.raiseFlag m x).t1lL = x.t1lL := by
  unfold Via.raiseFlag; split <;> rfl
@[simp] theorem Via.raiseFlag_t1lH (m : Byte) (x : Via) : (Via.raiseFlag m x).t1lH = x.t1lH := by
  unfold Via.raiseFlag; split <;> rfl
@[simp] theorem Via.raiseFlag_t2cL (m : Byte) (x : Via) : (Via.raiseFlag m x).t2cL = x.t2cL := by
  unfold Via.raiseFlag; split <;> rfl
@[simp] theorem Via.raiseFlag_t2cH (m : Byte) (x : Via) : (Via.raiseFlag m x).t2cH = x.t2cH := by
  unfold Via.raiseFlag; split <;> rfl
@[simp] theorem Via.raiseFlag_sr (m : Byte) (x : Via) : (Via.raiseFlag m x).sr = x.sr := by
  unfold Via.raiseFlag; split <;> rfl
@[simp] theorem Via.raiseFlag_acr (m : Byte) (x : Via) : (Via.raiseFlag m x).acr = x.acr := by
  unfold Via.raiseFlag; split <;> rfl
@[simp] theorem Via.raiseFlag_pcr (m : Byte) (x : Via) : (Via.raiseFlag m x).pcr = x.pcr := by
  unfold Via.raiseFlag; split <;> rfl
@[simp] theorem Via.raiseFlag_ier (m : Byte) (x : Via) : (Via.raiseFlag m x).ier = x.ier := by
  unfold Via.raiseFlag; split <;> rfl
@[simp] theorem Via.raiseFlag_oraNh (m : Byte) (x : Via) : (Via.raiseFlag m x).oraNh = x.oraNh := by
  unfold Via.raiseFlag; split <;> rfl
@[simp] theorem Via.raiseFlag_portA (m : Byte) (x : Via) : (Via.raiseFlag m x).portA = x.portA := by
  unfold Via.raiseFlag; split <;> rfl
@[simp] theorem Via.raiseFlag_portB (m : Byte) (x : Via) : (Via.raiseFlag m x).portB = x.portB := by
  unfold Via.raiseFlag; split <;> rfl

end Sys2Proof.Machine
end

