-- ==== Sys2Proof/Laws/Flags.lean ====
section
/-! SUPPORT. What raising and clearing a flag do, bit by bit, and what one count of a timer does, in numbers. -/

namespace Sys2Proof.Machine

/-- The low seven bits of a byte are all clear exactly when the masked byte is 0. -/
theorem lowSeven_eq_zero (b : Byte) : b &&& 0x7F#8 = 0x00#8 ↔ ∀ j, j < 7 → b.getLsbD j = false := by
  have hm : ∀ j, j < 8 → (0x7F#8).getLsbD j = decide (j < 7) := by decide
  constructor
  · intro h j hj
    have e := congrArg (fun x : Byte => x.getLsbD j) h
    simpa [BitVec.getLsbD_and, hm j (by omega), hj] using e
  · intro h
    apply BitVec.eq_of_getLsbD_eq
    intro j hj
    rw [BitVec.getLsbD_and, hm j hj]
    by_cases h7 : j < 7
    · simp [h j h7]
    · simp [h7]

/-- `clear`, bit by bit, for a mask with one bit below the summary bit. -/
theorem clearedFlags_spec {k : Nat} (hk : k < 7) {m : Byte} (hm : ∀ j, j < 8 → m.getLsbD j = decide (j = k)) (ifr : Byte) :
    FlagCleared k ifr (clearedFlags m ifr) := by
  have hkept : ∀ j, j < 8 → (ifr &&& ~~~m).getLsbD j = (ifr.getLsbD j && !decide (j = k)) := by
    intro j hj
    rw [BitVec.getLsbD_and, BitVec.getLsbD_not, hm j hj]
    simp [hj]
  have hlow : ∀ j, j < 7 → (clearedFlags m ifr).getLsbD j = (ifr &&& ~~~m).getLsbD j := by
    intro j hj
    unfold clearedFlags
    simp only
    split
    · have h7 : ∀ j, j < 7 → (0x7F#8).getLsbD j = true := by decide
      rw [BitVec.getLsbD_and, h7 j hj, Bool.and_true]
    · rfl
  refine ⟨?_, ?_, ?_⟩
  · rw [hlow k hk, hkept k (by omega)]; simp
  · intro j hj hne
    rw [hlow j hj, hkept j (by omega)]; simp [hne]
  · by_cases hall : ∀ j, j < 7 → (ifr &&& ~~~m).getLsbD j = false
    · have h7 : (clearedFlags m ifr).getLsbD 7 = false := by
        unfold clearedFlags
        simp only [(lowSeven_eq_zero _).mpr hall, if_true]
        decide
      rw [h7]
      simp only [Bool.false_eq_true, false_iff, not_and, not_exists]
      intro _ j hj ht
      rw [hlow j hj, hall j hj] at ht
      exact absurd ht (by decide)
    · have h7 : (clearedFlags m ifr).getLsbD 7 = ifr.getLsbD 7 := by
        unfold clearedFlags
        simp only [if_neg (fun h => hall ((lowSeven_eq_zero _).mp h))]
        rw [hkept 7 (by omega)]
        have : 7 ≠ k := by omega
        simp [this]
      rw [h7]
      refine ⟨fun h => ⟨h, ?_⟩, fun h => h.1⟩
      by_contra hno
      refine hall fun j hj => ?_
      have := fun ht => hno ⟨j, hj, ht⟩
      rw [hlow j hj] at this
      exact Bool.eq_false_iff.mpr this

theorem clearedFlags_timer1 (ifr : Byte) : FlagCleared 6 ifr (clearedFlags timer1Mask ifr) :=
  clearedFlags_spec (by omega) (by decide) ifr

theorem clearedFlags_timer2 (ifr : Byte) : FlagCleared 5 ifr (clearedFlags timer2Mask ifr) :=
  clearedFlags_spec (by omega) (by decide) ifr

/-- A byte masked by one bit is 0 exactly when that bit is clear. -/
theorem and_mask_eq_zero {k : Nat} (hk : k < 8) {m : Byte} (hm : ∀ j, j < 8 → m.getLsbD j = decide (j = k)) (b : Byte) :
    b &&& m = 0x00#8 ↔ b.getLsbD k = false := by
  constructor
  · intro h
    have e := congrArg (fun x : Byte => x.getLsbD k) h
    simpa [BitVec.getLsbD_and, hm k hk] using e
  · intro h
    apply BitVec.eq_of_getLsbD_eq
    intro j hj
    rw [BitVec.getLsbD_and, hm j hj]
    by_cases hjk : j = k
    · subst hjk; simp [h]
    · simp [hjk]

theorem and_timer1Mask (b : Byte) : b &&& timer1Mask = 0x00#8 ↔ b.getLsbD 6 = false :=
  and_mask_eq_zero (by omega) (by decide) b

theorem and_timer2Mask (b : Byte) : b &&& timer2Mask = 0x00#8 ↔ b.getLsbD 5 = false :=
  and_mask_eq_zero (by omega) (by decide) b

theorem Via.pending_timer1 (x : Via) : x.pending timer1Mask = x.ifr.getLsbD 6 := by
  rw [Bool.eq_iff_iff]
  simp only [Via.pending, bne_iff_ne, ne_eq, and_timer1Mask, Bool.not_eq_false]

theorem Via.pending_timer2 (x : Via) : x.pending timer2Mask = x.ifr.getLsbD 5 := by
  rw [Bool.eq_iff_iff]
  simp only [Via.pending, bne_iff_ne, ne_eq, and_timer2Mask, Bool.not_eq_false]

/-- What `raise` does to the flags, bit by bit (R282). -/
theorem Via.raiseFlag_ifr {k : Nat} (hk : k < 7) {m : Byte} (hm : ∀ j, j < 8 → m.getLsbD j = decide (j = k)) (x : Via)
    (j : Nat) (hj : j < 8) :
    (Via.raiseFlag m x).ifr.getLsbD j = (x.ifr.getLsbD j || decide (j = k) || (decide (j = 7) && x.ier.getLsbD k)) := by
  have h80 : ∀ j, j < 8 → summaryMask.getLsbD j = decide (j = 7) := by decide
  unfold Via.raiseFlag
  have := and_mask_eq_zero (by omega : k < 8) hm x.ier
  split
  · rename_i h
    rw [this] at h
    simp [BitVec.getLsbD_or, hm j hj, h]
  · rename_i h
    rw [this, Bool.not_eq_false] at h
    simp [Via.emitIrq, BitVec.getLsbD_or, hm j hj, h80 j hj, h]

/-- What `raise` emits: one event when the enable bit is set, none otherwise (R282). -/
theorem Via.raiseFlag_irqTrace {k : Nat} (hk : k < 8) {m : Byte} (hm : ∀ j, j < 8 → m.getLsbD j = decide (j = k)) (x : Via) :
    (Via.raiseFlag m x).irqTrace = x.irqTrace ++ if x.ier.getLsbD k then [.irq] else [] := by
  unfold Via.raiseFlag
  have := and_mask_eq_zero hk hm x.ier
  split
  · rename_i h
    rw [this] at h
    simp [h]
  · rename_i h
    rw [this, Bool.not_eq_false] at h
    simp [h]

/-- One count in numbers: down by one modulo 65536 (R301). -/
theorem countDown_value (lo hi : Byte) :
    (countDown lo hi).2.toNat * 256 + (countDown lo hi).1.toNat = (hi.toNat * 256 + lo.toNat + 65535) % 65536 := by
  have hl := lo.isLt
  have hh := hi.isLt
  unfold countDown
  split
  · rename_i h
    subst h
    simp only [BitVec.toNat_sub, BitVec.toNat_ofNat]
    omega
  · rename_i h
    have : lo.toNat ≠ 0 := fun h0 => h (BitVec.eq_of_toNat_eq (by simpa using h0))
    simp only [BitVec.toNat_sub, BitVec.toNat_ofNat]
    omega

/-- The expiry test: the new count is 0, that is, the old one was 1 (R301, R304). -/
theorem expired_countDown (lo hi : Byte) : expired (countDown lo hi) = decide (hi.toNat * 256 + lo.toNat = 1) := by
  have hv := countDown_value lo hi
  have hl := lo.isLt
  have hh := hi.isLt
  have h1 := (countDown lo hi).1.isLt
  have h2 := (countDown lo hi).2.isLt
  rw [Bool.eq_iff_iff]
  simp only [expired, Bool.and_eq_true, beq_iff_eq, decide_eq_true_eq]
  constructor
  · rintro ⟨ha, hb⟩
    rw [ha, hb] at hv
    simp at hv
    omega
  · intro h
    constructor <;> (apply BitVec.eq_of_toNat_eq; simp; omega)

end Sys2Proof.Machine
end

