-- ==== Sys2Proof/Laws/Memory.lean ====
section
/-! SUPPORT. The laws of the `BUF` cells: a cell reads what was last stored in it, a store leaves every other cell alone, and
every operation keeps the canonical form. -/

namespace Sys2Proof.Machine

@[simp] theorem Memory.read_nil (a : Nat) : Memory.read [] a = 0x00#8 := rfl

theorem Memory.read_cons (k : Nat) (v : Byte) (rest : Memory) (a : Nat) :
    Memory.read ((k, v) :: rest) a = if k = a then v else Memory.read rest a := rfl

theorem Memory.read_of_not_mem {m : Memory} {a : Nat} (h : a ∉ Memory.addresses m) : Memory.read m a = 0x00#8 := by
  induction m with
  | nil => rfl
  | cons c rest ih =>
    obtain ⟨k, v⟩ := c
    simp only [Memory.addresses, List.map_cons, List.mem_cons, not_or] at h
    rw [Memory.read_cons, if_neg (Ne.symm h.1)]
    exact ih h.2

theorem Memory.addresses_put (a : Nat) (v : Byte) (rest : Memory) :
    Memory.addresses (Memory.put a v rest) = if v = 0x00#8 then Memory.addresses rest else a :: Memory.addresses rest := by
  unfold Memory.put
  split <;> rfl

/-- The canonical form as a proposition: rising addresses, no zero sample. -/
theorem Memory.wf_iff (m : Memory) :
    Memory.wf m = true ↔ List.Pairwise (· < ·) (Memory.addresses m) ∧ ∀ c ∈ m, c.2 ≠ 0x00#8 := by
  simp [Memory.wf, List.all_eq_true]

theorem Memory.wf_nil : Memory.wf [] = true := rfl

theorem Memory.wf_tail {c : Host.Cell} {rest : Memory} (h : Memory.wf (c :: rest) = true) : Memory.wf rest = true := by
  rw [Memory.wf_iff] at *
  exact ⟨(List.pairwise_cons.mp h.1).2, fun d hd => h.2 d (List.mem_cons_of_mem _ hd)⟩

/-- The first address of a memory in canonical form is below all the others. -/
theorem Memory.head_lt {k : Nat} {w : Byte} {rest : Memory} (h : Memory.wf ((k, w) :: rest) = true) :
    ∀ b ∈ Memory.addresses rest, k < b :=
  (List.pairwise_cons.mp ((Memory.wf_iff _).mp h).1).1

theorem Memory.mem_addresses_write {m : Memory} {a : Nat} {v : Byte} {b : Nat}
    (h : b ∈ Memory.addresses (Memory.write m a v)) : b = a ∨ b ∈ Memory.addresses m := by
  induction m with
  | nil =>
    simp only [Memory.write, Memory.addresses_put] at h
    split at h
    · exact .inr h
    · exact (List.mem_cons.mp h).imp_right (fun h => h)
  | cons c rest ih =>
    obtain ⟨k, w⟩ := c
    simp only [Memory.write] at h
    split at h
    · rw [Memory.addresses_put] at h
      split at h
      · exact .inr h
      · exact List.mem_cons.mp h
    · split at h
      · rw [Memory.addresses_put] at h
        split at h
        · exact .inr (List.mem_cons_of_mem _ h)
        · exact (List.mem_cons.mp h).imp_right (List.mem_cons_of_mem _)
      · rcases List.mem_cons.mp h with h | h
        · exact .inr (h ▸ List.mem_cons_self)
        · exact (ih h).imp_right (List.mem_cons_of_mem _)

theorem Memory.wf_put {a : Nat} {v : Byte} {rest : Memory} (h : Memory.wf rest = true)
    (hlt : ∀ b ∈ Memory.addresses rest, a < b) : Memory.wf (Memory.put a v rest) = true := by
  unfold Memory.put
  split
  · exact h
  · rename_i hv
    rw [Memory.wf_iff] at *
    refine ⟨List.pairwise_cons.mpr ⟨hlt, h.1⟩, ?_⟩
    intro c hc
    rcases List.mem_cons.mp hc with rfl | hc
    · exact hv
    · exact h.2 c hc

/-- A store keeps the canonical form. -/
theorem Memory.wf_write {m : Memory} (h : Memory.wf m = true) (a : Nat) (v : Byte) : Memory.wf (Memory.write m a v) = true := by
  induction m with
  | nil => exact Memory.wf_put Memory.wf_nil (by simp [Memory.addresses])
  | cons c rest ih =>
    obtain ⟨k, w⟩ := c
    have hk := Memory.head_lt h
    have ht := Memory.wf_tail h
    simp only [Memory.write]
    split
    · rename_i hak
      refine Memory.wf_put h ?_
      intro b hb
      rcases List.mem_cons.mp hb with rfl | hb
      · exact hak
      · exact Nat.lt_trans hak (hk b hb)
    · split
      · rename_i hak
        exact Memory.wf_put ht (hak ▸ hk)
      · rename_i h1 h2
        have hw := (Memory.wf_iff _).mp h
        have hr := (Memory.wf_iff _).mp (ih ht)
        rw [Memory.wf_iff]
        refine ⟨List.pairwise_cons.mpr ⟨?_, hr.1⟩, ?_⟩
        · intro b hb
          rcases Memory.mem_addresses_write hb with rfl | hb
          · omega
          · exact hk b hb
        · intro d hd
          rcases List.mem_cons.mp hd with rfl | hd
          · exact hw.2 _ List.mem_cons_self
          · exact hr.2 d hd

theorem Memory.read_put {a b : Nat} {v : Byte} {rest : Memory} (h : a ∉ Memory.addresses rest) :
    Memory.read (Memory.put a v rest) b = if b = a then v else Memory.read rest b := by
  unfold Memory.put
  split
  · rename_i hv
    split
    · rename_i hb
      rw [hb, hv, Memory.read_of_not_mem h]
    · rfl
  · rw [Memory.read_cons]
    simp only [eq_comm]

/-- Everything a store does to what reads see: the stored cell reads the stored byte, every other cell reads as before. -/
theorem Memory.read_write {m : Memory} (h : Memory.wf m = true) (a : Nat) (v : Byte) (b : Nat) :
    Memory.read (Memory.write m a v) b = if b = a then v else Memory.read m b := by
  induction m with
  | nil => exact Memory.read_put (by simp [Memory.addresses])
  | cons c rest ih =>
    obtain ⟨k, w⟩ := c
    have hk := Memory.head_lt h
    simp only [Memory.write]
    split
    · rename_i hak
      refine Memory.read_put ?_
      intro hm
      rcases List.mem_cons.mp hm with hm | hm
      · omega
      · have := hk a hm; omega
    · split
      · rename_i hak
        subst hak
        rw [Memory.read_put (fun hm => Nat.lt_irrefl _ (hk a hm)), Memory.read_cons]
        split
        · rfl
        · rename_i hb
          rw [if_neg (fun he => hb he.symm)]
      · rename_i h1 h2
        rw [Memory.read_cons, Memory.read_cons, ih (Memory.wf_tail h)]
        split
        · rename_i hkb
          rw [if_neg (by omega)]
        · rfl

theorem Memory.read_write_same {m : Memory} (h : Memory.wf m = true) (a : Nat) (v : Byte) :
    Memory.read (Memory.write m a v) a = v := by
  rw [Memory.read_write h, if_pos rfl]

theorem Memory.read_write_other {m : Memory} (h : Memory.wf m = true) {a b : Nat} (v : Byte) (hab : b ≠ a) :
    Memory.read (Memory.write m a v) b = Memory.read m b := by
  rw [Memory.read_write h, if_neg hab]

/-- Two memories in canonical form that read alike are equal data. -/
theorem Memory.ext_of_read {m n : Memory} (hm : Memory.wf m = true) (hn : Memory.wf n = true)
    (h : ∀ a, Memory.read m a = Memory.read n a) : m = n := by
  induction m generalizing n with
  | nil =>
    cases n with
    | nil => rfl
    | cons c rest =>
      obtain ⟨k, w⟩ := c
      have := h k
      rw [Memory.read_cons, if_pos rfl] at this
      exact absurd this.symm (((Memory.wf_iff _).mp hn).2 _ List.mem_cons_self)
  | cons c rest ih =>
    obtain ⟨k, w⟩ := c
    cases n with
    | nil =>
      have := h k
      rw [Memory.read_cons, if_pos rfl] at this
      exact absurd this (((Memory.wf_iff _).mp hm).2 _ List.mem_cons_self)
    | cons d rest' =>
      obtain ⟨l, x⟩ := d
      have hw := ((Memory.wf_iff _).mp hm).2 (k, w) List.mem_cons_self
      have hx := ((Memory.wf_iff _).mp hn).2 (l, x) List.mem_cons_self
      have below : ∀ {j : Nat} {y : Byte} {r : Memory}, Memory.wf ((j, y) :: r) = true → ∀ {b : Nat}, b < j →
          Memory.read ((j, y) :: r) b = 0x00#8 := by
        intro j y r hr b hb
        refine Memory.read_of_not_mem ?_
        intro hmem
        rcases List.mem_cons.mp hmem with he | hmem
        · exact absurd he (by simp; omega)
        · have := Memory.head_lt hr b hmem; omega
      have hkl : k = l := by
        rcases Nat.lt_trichotomy k l with hlt | he | hgt
        · have e := h k
          rw [below hn hlt, Memory.read_cons, if_pos rfl] at e
          exact absurd e hw
        · exact he
        · have e := h l
          rw [below hm hgt, Memory.read_cons, if_pos rfl] at e
          exact absurd e.symm hx
      subst hkl
      have hwx : w = x := by
        have e := h k
        rwa [Memory.read_cons, if_pos rfl, Memory.read_cons, if_pos rfl] at e
      subst hwx
      have htail : rest = rest' := by
        refine ih (Memory.wf_tail hm) (Memory.wf_tail hn) ?_
        intro a
        by_cases ha : k = a
        · subst ha
          rw [Memory.read_of_not_mem (fun hmem => Nat.lt_irrefl _ (Memory.head_lt hm k hmem)),
            Memory.read_of_not_mem (fun hmem => Nat.lt_irrefl _ (Memory.head_lt hn k hmem))]
        · have e := h a
          rwa [Memory.read_cons, if_neg ha, Memory.read_cons, if_neg ha] at e
      rw [htail]

end Sys2Proof.Machine
end

