-- ==== Sys2Proof/Laws/Operands.lean ====
section
/-! SUPPORT. What the operand forms compute, in numbers and bits: one lemma each. -/

namespace Sys2Proof.Machine

/-- `merge`, bit by bit (R284). -/
theorem mergeBits_getLsbD (v d p : Byte) (k : Nat) :
    (mergeBits v d p).getLsbD k = if d.getLsbD k then v.getLsbD k else p.getLsbD k := by
  simp only [mergeBits, BitVec.getLsbD_or, BitVec.getLsbD_and, BitVec.getLsbD_not]
  by_cases hk : k < 8
  · cases d.getLsbD k <;> simp [hk]
  · have hp : p.getLsbD k = false := BitVec.getLsbD_of_ge _ _ (by omega)
    have hd : d.getLsbD k = false := BitVec.getLsbD_of_ge _ _ (by omega)
    simp [hp, hd]

/-- The low nibble of a byte in numbers. -/
theorem lowNibble_toNat (b : Byte) : (b &&& 0x0F#8).toNat = b.toNat % 16 := by
  rw [BitVec.toNat_and]
  exact Nat.and_two_pow_sub_one_eq_mod b.toNat 4

/-- A tone period in numbers (R105): it always fits (R330). -/
theorem tonePeriod_toNat (fine coarse : Byte) :
    (tonePeriod fine coarse).toNat = fine.toNat + 256 * (coarse.toNat % 16) := by
  have hf := fine.isLt
  simp only [tonePeriod, BitVec.toNat_ofNat, lowNibble_toNat, Nat.shiftLeft_eq]
  omega

/-- A noise period in numbers (R105). -/
theorem noisePeriod_toNat (r6 : Byte) : (noisePeriod r6).toNat = r6.toNat % 32 := by
  simp [noisePeriod, BitVec.extractLsb'_toNat]

/-- `eff` in numbers (R193). -/
theorem eff_toNat {w : Nat} (hw : 0 < w) (p : BitVec w) : (eff p).toNat = effNat p.toNat := by
  have h1 : (1 : BitVec w).toNat = 1 := by
    show (BitVec.ofNat w 1).toNat = 1
    rw [BitVec.toNat_ofNat]
    exact Nat.mod_eq_of_lt (Nat.one_lt_two_pow (by omega))
  unfold eff effNat
  by_cases hp : p = 0
  · subst hp; simpa using h1
  · have : p.toNat ≠ 0 := fun h => hp (BitVec.eq_of_toNat_eq (by simpa using h))
    rw [if_neg hp, if_neg this]

theorem effNat_pos (p : Nat) : 1 ≤ effNat p := by
  unfold effNat; split <;> omega

/-- The envelope period length in numbers (R211). -/
theorem envLength_eq (p : Psg) : envLength p = p.periodLength := by
  have h := (p.reg 11).isLt
  unfold envLength Psg.periodLength
  rw [← Nat.shiftLeft_add_eq_or_of_lt h, Nat.shiftLeft_eq]

theorem periodLength_bounds (p : Psg) : 1 ≤ p.periodLength ∧ p.periodLength ≤ 65536 := by
  have h1 := (p.reg 11).isLt
  have h2 := (p.reg 12).isLt
  unfold Psg.periodLength
  omega

/-- The envelope position in numbers; a counter above the length stands at 0 (R213, D12). -/
theorem envPosition_eq (len rem : Nat) : envPosition len rem = 16 * (len - rem) / len := by
  unfold envPosition
  split
  · rfl
  · rename_i h
    have : len - rem = 0 := by omega
    simp [this]

/-- The position is at most 15, since a running counter is at least 1 (R213, R330). -/
theorem envPosition_le {len rem : Nat} (hl : 1 ≤ len) (hr : 1 ≤ rem) : envPosition len rem ≤ 15 := by
  rw [envPosition_eq]
  have : 16 * (len - rem) / len < 16 := (Nat.div_lt_iff_lt_mul (by omega)).mpr (by omega)
  omega

/-- A ramp in numbers, for a position in range. -/
theorem ramp_toNat {step : Nat} (h : step ≤ 15) (up : Bool) : (ramp up step).toNat = if up then step else 15 - step := by
  unfold ramp
  rw [BitVec.toNat_ofNat]
  cases up <;> simp <;> omega

/-- The level of a channel in numbers (R232). -/
theorem channelLevel_toNat (p : Psg) (c : Fin 3) :
    (channelLevel p c).toNat =
      if (p.reg (ampReg c)).getLsbD 4 then p.env.value.toNat else (p.reg (ampReg c)).toNat % 16 := by
  unfold channelLevel
  split
  · rfl
  · simp [BitVec.extractLsb'_toNat]

/-- The sample in numbers (R233). -/
theorem mixSample_toNat (gain : Nat) (p : Psg) :
    (mixSample gain p).toNat = gain * (mixedChannel p 0 + mixedChannel p 1 + mixedChannel p 2) % 256 := by
  simp [mixSample, BitVec.toNat_ofNat]

end Sys2Proof.Machine
end

