-- ==== Sys2Proof/Laws/PerInstr.lean ====
section
/-! SUPPORT. One lemma per constructor of `Instr` about the length of what the encoder writes (R112). -/

namespace Sys2Proof.Laws.EncodedLength

/-- The encoder writes exactly as many bytes as the instruction takes in its format. -/
def Statement (i : Instr) : Prop := (encode i).length = i.length

theorem busReset : Statement (.busReset) := rfl
theorem busInactive : Statement (.busInactive) := rfl
theorem busRead : Statement (.busRead) := rfl
theorem busWrite : Statement (.busWrite) := rfl
theorem busLatch : Statement (.busLatch) := rfl
theorem viaRdIrb : Statement (.viaRdIrb) := rfl
theorem viaRdIra : Statement (.viaRdIra) := rfl
theorem viaRdDdrb : Statement (.viaRdDdrb) := rfl
theorem viaRdDdra : Statement (.viaRdDdra) := rfl
theorem viaRdT1cL : Statement (.viaRdT1cL) := rfl
theorem viaRdT1cH : Statement (.viaRdT1cH) := rfl
theorem viaRdT1lL : Statement (.viaRdT1lL) := rfl
theorem viaRdT1lH : Statement (.viaRdT1lH) := rfl
theorem viaRdT2cL : Statement (.viaRdT2cL) := rfl
theorem viaRdT2cH : Statement (.viaRdT2cH) := rfl
theorem viaRdSr : Statement (.viaRdSr) := rfl
theorem viaRdAcr : Statement (.viaRdAcr) := rfl
theorem viaRdPcr : Statement (.viaRdPcr) := rfl
theorem viaRdIfr : Statement (.viaRdIfr) := rfl
theorem viaRdIer : Statement (.viaRdIer) := rfl
theorem viaRdOraNh : Statement (.viaRdOraNh) := rfl
theorem viaWrOrb (v : Byte) : Statement (.viaWrOrb v) := rfl
theorem viaWrOra (v : Byte) : Statement (.viaWrOra v) := rfl
theorem viaWrDdrb (v : Byte) : Statement (.viaWrDdrb v) := rfl
theorem viaWrDdra (v : Byte) : Statement (.viaWrDdra v) := rfl
theorem viaWrT1cL (v : Byte) : Statement (.viaWrT1cL v) := rfl
theorem viaWrT1cH (v : Byte) : Statement (.viaWrT1cH v) := rfl
theorem viaWrT1lL (v : Byte) : Statement (.viaWrT1lL v) := rfl
theorem viaWrT1lH (v : Byte) : Statement (.viaWrT1lH v) := rfl
theorem viaWrT2cL (v : Byte) : Statement (.viaWrT2cL v) := rfl
theorem viaWrT2cH (v : Byte) : Statement (.viaWrT2cH v) := rfl
theorem viaWrSr (v : Byte) : Statement (.viaWrSr v) := rfl
theorem viaWrAcr (v : Byte) : Statement (.viaWrAcr v) := rfl
theorem viaWrPcr (v : Byte) : Statement (.viaWrPcr v) := rfl
theorem viaWrIfr (v : Byte) : Statement (.viaWrIfr v) := rfl
theorem viaWrIer (v : Byte) : Statement (.viaWrIer v) := rfl
theorem viaWrOraNh (v : Byte) : Statement (.viaWrOraNh v) := rfl
theorem psgRd0 : Statement (.psgRd0) := rfl
theorem psgRd1 : Statement (.psgRd1) := rfl
theorem psgRd2 : Statement (.psgRd2) := rfl
theorem psgRd3 : Statement (.psgRd3) := rfl
theorem psgRd4 : Statement (.psgRd4) := rfl
theorem psgRd5 : Statement (.psgRd5) := rfl
theorem psgRd6 : Statement (.psgRd6) := rfl
theorem psgRd7 : Statement (.psgRd7) := rfl
theorem psgRd8 : Statement (.psgRd8) := rfl
theorem psgRd9 : Statement (.psgRd9) := rfl
theorem psgRd10 : Statement (.psgRd10) := rfl
theorem psgRd11 : Statement (.psgRd11) := rfl
theorem psgRd12 : Statement (.psgRd12) := rfl
theorem psgRd13 : Statement (.psgRd13) := rfl
theorem psgRd14 : Statement (.psgRd14) := rfl
theorem psgRd15 : Statement (.psgRd15) := rfl
theorem psgWr0 (v : Byte) : Statement (.psgWr0 v) := rfl
theorem psgWr1 (v : Byte) : Statement (.psgWr1 v) := rfl
theorem psgWr2 (v : Byte) : Statement (.psgWr2 v) := rfl
theorem psgWr3 (v : Byte) : Statement (.psgWr3 v) := rfl
theorem psgWr4 (v : Byte) : Statement (.psgWr4 v) := rfl
theorem psgWr5 (v : Byte) : Statement (.psgWr5 v) := rfl
theorem psgWr6 (v : Byte) : Statement (.psgWr6 v) := rfl
theorem psgWr7 (v : Byte) : Statement (.psgWr7 v) := rfl
theorem psgWr8 (v : Byte) : Statement (.psgWr8 v) := rfl
theorem psgWr9 (v : Byte) : Statement (.psgWr9 v) := rfl
theorem psgWr10 (v : Byte) : Statement (.psgWr10 v) := rfl
theorem psgWr11 (v : Byte) : Statement (.psgWr11 v) := rfl
theorem psgWr12 (v : Byte) : Statement (.psgWr12 v) := rfl
theorem psgWr13 (v : Byte) : Statement (.psgWr13 v) := rfl
theorem psgWr14 (v : Byte) : Statement (.psgWr14 v) := rfl
theorem psgWr15 (v : Byte) : Statement (.psgWr15 v) := rfl
theorem clk : Statement (.clk) := rfl
theorem drain : Statement (.drain) := rfl
theorem envShape0 : Statement (.envShape0) := rfl
theorem envShape1 : Statement (.envShape1) := rfl
theorem envShape2 : Statement (.envShape2) := rfl
theorem envShape3 : Statement (.envShape3) := rfl
theorem envShape4 : Statement (.envShape4) := rfl
theorem envShape5 : Statement (.envShape5) := rfl
theorem envShape6 : Statement (.envShape6) := rfl
theorem envShape7 : Statement (.envShape7) := rfl
theorem envShape8 : Statement (.envShape8) := rfl
theorem envShape9 : Statement (.envShape9) := rfl
theorem envShapeA : Statement (.envShapeA) := rfl
theorem envShapeB : Statement (.envShapeB) := rfl
theorem envShapeC : Statement (.envShapeC) := rfl
theorem envShapeD : Statement (.envShapeD) := rfl
theorem envShapeE : Statement (.envShapeE) := rfl
theorem envShapeF : Statement (.envShapeF) := rfl

end Sys2Proof.Laws.EncodedLength
end

