-- ==== Sys2Proof/Laws/Synth.lean ====
section
/-! SUPPORT. What each shared operation of the Synthesizer Core does, and that each keeps the PSG's invariant. -/

namespace Sys2Proof.Machine

/-! ## The register file -/

theorem Psg.reg_store (p : Psg) (i j : Fin 16) (v : Byte) : (p.store i v).reg j = if i = j then v else p.reg j := by
  simp only [Psg.reg, Psg.store, Fin.getElem_fin, Vector.getElem_set, Fin.ext_iff]

theorem Psg.reg_congr {p q : Psg} (h : p.regs = q.regs) (i : Fin 16) : p.reg i = q.reg i := by
  simp [Psg.reg, h]

/-- A register write stores its byte, whatever else it does (R167). -/
theorem Psg.write_regs (i : Fin 16) (v : Byte) (p : Psg) : (p.write i v).regs = p.regs.set i v := by
  obtain ⟨n, hn⟩ := i
  interval_cases n <;> rfl

theorem Psg.reg_write (i j : Fin 16) (v : Byte) (p : Psg) : (p.write i v).reg j = if i = j then v else p.reg j := by
  simp only [Psg.reg, Psg.write_regs, Fin.getElem_fin, Vector.getElem_set, Fin.ext_iff]

/-- What a register write leaves alone, for every register (R78). -/
theorem Psg.write_frame (i : Fin 16) (v : Byte) (p : Psg) :
    (p.write i v).sel = p.sel ∧ (p.write i v).buf = p.buf ∧ (p.write i v).cursor = p.cursor ∧ (p.write i v).tick = p.tick ∧
      (p.write i v).env.value = p.env.value ∧ (p.write i v).noise.signal = p.noise.signal ∧
      ∀ c : Fin 3, ((p.write i v).tone[c]).signal = (p.tone[c]).signal := by
  have hset : ∀ (q : Psg) (d c : Fin 3), ((q.reloadTone d).tone[c]).signal = (q.tone[c]).signal := by
    intro q d c
    simp only [Psg.reloadTone, Fin.getElem_fin, Vector.getElem_set]
    split
    · rename_i h; simp [h]
    · rfl
  obtain ⟨n, hn⟩ := i
  interval_cases n <;> refine ⟨rfl, rfl, rfl, rfl, rfl, rfl, fun c => ?_⟩ <;> first | rfl | exact hset _ _ c

theorem Psg.selected_eq_some {p : Psg} {i : Fin 16} : p.selected = some i ↔ p.sel.toNat = i.val := by
  unfold Psg.selected
  split
  · simp [Fin.ext_iff]
  · have := i.isLt
    simp only [reduceCtorEq, false_iff]
    omega

theorem Psg.selected_eq_none {p : Psg} : p.selected = none ↔ 16 ≤ p.sel.toNat := by
  unfold Psg.selected
  split
  · simp only [reduceCtorEq, false_iff]; omega
  · simp only [true_iff]; omega

/-! ## The dividers -/

/-- A running tone divider either counts or, from 1, reloads and inverts (R190). -/
theorem ToneChannel.step_spec {t : ToneChannel} (h : 1 ≤ t.counter.toNat) :
    t.step = if t.counter = 1#12 then { t with counter := eff t.period, signal := !t.signal }
      else { t with counter := t.counter - 1#12 } := by
  unfold ToneChannel.step
  have : t.counter - 1#12 = 0#12 ↔ t.counter = 1#12 := by bv_omega
  simp only [this]

/-- A running noise divider either counts or, from 1, reloads and takes the drawn bit (R191). -/
theorem NoiseGen.step_spec {n : NoiseGen} (b : Bool) (h : 1 ≤ n.counter.toNat) :
    n.step b = if n.counter = 1#5 then { n with counter := eff n.period, signal := b }
      else { n with counter := n.counter - 1#5 } := by
  unfold NoiseGen.step NoiseGen.reloads
  have : (n.counter - 1#5 == 0#5) = true ↔ n.counter = 1#5 := by
    rw [beq_iff_eq]; bv_omega
  simp only [this]

theorem NoiseGen.reloads_iff {n : NoiseGen} : n.reloads = true ↔ n.counter = 1#5 := by
  unfold NoiseGen.reloads
  rw [beq_iff_eq]; bv_omega

theorem ToneChannel.step_period (t : ToneChannel) : t.step.period = t.period := by
  unfold ToneChannel.step; dsimp only; split <;> rfl

theorem ToneChannel.Inv.step {t : ToneChannel} (h : t.Inv) : t.step.Inv := by
  obtain ⟨h1, h2⟩ := h
  rw [ToneChannel.step_spec h1]
  have he : 1 ≤ (eff t.period).toNat := by rw [eff_toNat (by omega)]; exact effNat_pos _
  split
  · exact ⟨he, Nat.le_refl _⟩
  · rename_i hne
    have : t.counter.toNat ≠ 1 := fun h => hne (BitVec.eq_of_toNat_eq (by simpa using h))
    have hs : (t.counter - 1#12).toNat = t.counter.toNat - 1 := by bv_omega
    refine ⟨?_, ?_⟩ <;> simp only [hs] <;> omega

theorem NoiseGen.Inv.step {n : NoiseGen} (h : n.Inv) (b : Bool) : (n.step b).Inv := by
  obtain ⟨h1, h2⟩ := h
  rw [NoiseGen.step_spec b h1]
  have he : 1 ≤ (eff n.period).toNat := by rw [eff_toNat (by omega)]; exact effNat_pos _
  split
  · exact ⟨he, Nat.le_refl _⟩
  · rename_i hne
    have : n.counter.toNat ≠ 1 := fun h => hne (BitVec.eq_of_toNat_eq (by simpa using h))
    have hs : (n.counter - 1#5).toNat = n.counter.toNat - 1 := by bv_omega
    refine ⟨?_, ?_⟩ <;> simp only [hs] <;> omega

/-! ## The envelope -/

/-- A running envelope counter either counts or, from 1, reloads and numbers the next period (R212). -/
theorem Envelope.count_spec {e : Envelope} (len : Nat) (h : 1 ≤ e.remaining.toNat) :
    e.count len = if e.remaining = 1#17 then
        { e with remaining := BitVec.ofNat 17 len, periodCounter := e.periodCounter + 1 }
      else { e with remaining := e.remaining - 1#17 } := by
  unfold Envelope.count
  have : e.remaining - 1#17 = 0#17 ↔ e.remaining = 1#17 := by bv_omega
  simp only [this]

theorem Envelope.Inv.step {e : Envelope} (h : e.Inv) (code : BitVec 4) {len : Nat} (hl : 1 ≤ len) (hu : len ≤ 65536) :
    (e.step code len).Inv := by
  obtain ⟨h1, h2, h3⟩ := h
  have hc := Envelope.count_spec len h1
  unfold Envelope.Inv Envelope.step
  simp only
  rw [hc]
  split
  · have : (BitVec.ofNat 17 len).toNat = len := by rw [BitVec.toNat_ofNat]; exact Nat.mod_eq_of_lt (by omega)
    simp only [this]
    exact ⟨hl, hu, fun h => absurd h (by omega)⟩
  · rename_i hne
    have : e.remaining.toNat ≠ 1 := fun h => hne (BitVec.eq_of_toNat_eq (by simpa using h))
    have hs : (e.remaining - 1#17).toNat = e.remaining.toNat - 1 := by bv_omega
    simp only [hs]
    exact ⟨by omega, by omega, fun h => absurd (h3 h) hne⟩

/-! ## The invariant of the PSG -/

theorem Psg.Inv.reset : Psg.reset.Inv where
  tones := fun c => by
    have : Psg.reset.tone[c] = ToneChannel.reset := by simp [Psg.reset]
    rw [this]
    exact ⟨by decide, by decide⟩
  noise := ⟨by decide, by decide⟩
  envelope := ⟨by decide, by decide, fun _ => rfl⟩
  cursor := by show 0 < Config.bufCapLessOne + 1; omega
  bufForm := Memory.wf_nil
  bufInside := fun _ _ => rfl

theorem Psg.Inv.store {p : Psg} (h : p.Inv) (i : Fin 16) (v : Byte) : (p.store i v).Inv :=
  ⟨h.tones, h.noise, h.envelope, h.cursor, h.bufForm, h.bufInside⟩

theorem Psg.Inv.reloadTone {p : Psg} (h : p.Inv) (c : Fin 3) : (p.reloadTone c).Inv := by
  refine ⟨fun d => ?_, h.noise, h.envelope, h.cursor, h.bufForm, h.bufInside⟩
  simp only [Psg.reloadTone, Fin.getElem_fin, Vector.getElem_set]
  split
  · refine ⟨?_, Nat.le_refl _⟩
    simp only [eff_toNat (by omega : 0 < 12)]
    exact effNat_pos _
  · exact h.tones d

theorem Psg.Inv.reloadNoise {p : Psg} (h : p.Inv) : p.reloadNoise.Inv := by
  refine ⟨h.tones, ⟨?_, Nat.le_refl _⟩, h.envelope, h.cursor, h.bufForm, h.bufInside⟩
  simp only [Psg.reloadNoise, eff_toNat (by omega : 0 < 5)]
  exact effNat_pos _

theorem Psg.Inv.restartEnvelope {p : Psg} (h : p.Inv) : p.restartEnvelope.Inv :=
  ⟨h.tones, h.noise, ⟨(by decide : 1 ≤ (1#17).toNat), (by decide : (1#17).toNat ≤ 65536), fun _ => rfl⟩, h.cursor, h.bufForm, h.bufInside⟩

theorem Psg.Inv.write {p : Psg} (h : p.Inv) (i : Fin 16) (v : Byte) : (p.write i v).Inv := by
  unfold Psg.write
  split
  · exact (h.store _ v).reloadTone 0
  · exact (h.store _ v).reloadTone 0
  · exact (h.store _ v).reloadTone 1
  · exact (h.store _ v).reloadTone 1
  · exact (h.store _ v).reloadTone 2
  · exact (h.store _ v).reloadTone 2
  · exact (h.store _ v).reloadNoise
  · exact (h.store _ v).restartEnvelope
  · exact h.store _ v

theorem Psg.Inv.stepDividers {p : Psg} (h : p.Inv) (b : Bool) : (p.stepDividers b).Inv := by
  refine ⟨fun c => ?_, h.noise.step b, h.envelope, h.cursor, h.bufForm, h.bufInside⟩
  simp only [Psg.stepDividers, Fin.getElem_fin, Vector.getElem_map]
  exact (h.tones c).step

theorem Psg.Inv.append {p : Psg} (h : p.Inv) (v : Byte) : (p.append Config.bufCap v).Inv := by
  refine ⟨h.tones, h.noise, h.envelope, Nat.mod_lt _ (Nat.lt_of_le_of_lt (Nat.zero_le _) h.cursor),
    Memory.wf_write h.bufForm _ _, fun a ha => ?_⟩
  have := h.cursor
  simp only [Psg.append]
  rw [Memory.read_write_other h.bufForm v (by omega)]
  exact h.bufInside a ha

theorem Psg.Inv.synthStep {p : Psg} (h : p.Inv) (gain : Nat) (b : Bool) : (p.synthStep gain Config.bufCap b).Inv :=
  (h.stepDividers b).append _

theorem Psg.Inv.envStep {p : Psg} (h : p.Inv) (code : BitVec 4) : (p.envStep code).Inv := by
  have hl := periodLength_bounds p
  rw [← envLength_eq] at hl
  exact ⟨h.tones, h.noise, h.envelope.step code hl.1 hl.2, h.cursor, h.bufForm, h.bufInside⟩

theorem Psg.Inv.setTick {p : Psg} (h : p.Inv) (t : Byte) : Psg.Inv { p with tick := t } :=
  ⟨h.tones, h.noise, h.envelope, h.cursor, h.bufForm, h.bufInside⟩

theorem Psg.Inv.setSel {p : Psg} (h : p.Inv) (v : Byte) : Psg.Inv { p with sel := v } :=
  ⟨h.tones, h.noise, h.envelope, h.cursor, h.bufForm, h.bufInside⟩

end Sys2Proof.Machine
end

