-- ==== Sys2Proof/Laws/Timers.lean ====
section
/-! SUPPORT. Everything `VIA_STEP` does, field by field: the counts, the flags, the events, and the registers and ports it
leaves alone (R300 to R303). -/

namespace Sys2Proof.Machine

/-- Whether timer 1's count reaches 0 in this pulse (R301, R304). -/
def Via.expires1 (x : Via) : Bool := decide (x.timer1 = 1)

/-- Whether timer 2's count reaches 0 in this pulse. -/
def Via.expires2 (x : Via) : Bool := decide (x.timer2 = 1)

/-- Whether timer 1 raises its flag in this pulse (R302). -/
def Via.raises1 (x : Via) : Bool := x.expires1 && (x.acr.getLsbD 6 || !x.ifr.getLsbD 6)

/-- Whether timer 2 raises its flag in this pulse (R303). -/
def Via.raises2 (x : Via) : Bool := x.expires2 && !x.ifr.getLsbD 5

theorem Via.expired_timer1 (x : Via) : expired (countDown x.t1cL x.t1cH) = x.expires1 := expired_countDown _ _

theorem Via.expired_timer2 (x : Via) : expired (countDown x.t2cL x.t2cH) = x.expires2 := expired_countDown _ _

/-- Timer 1's part of a step, with its cases laid open. -/
theorem Via.timer1Step_eq (x : Via) :
    x.timer1Step =
      let y := { x with t1cL := (countDown x.t1cL x.t1cH).1, t1cH := (countDown x.t1cL x.t1cH).2 }
      if x.expires1 then
        if x.acr.getLsbD 6 then Via.raiseFlag timer1Mask { x with t1cL := x.t1lL, t1cH := x.t1lH }
        else if x.ifr.getLsbD 6 then y else Via.raiseFlag timer1Mask y
      else y := by
  simp only [Via.timer1Step, Via.expired_timer1, Via.timer1Expire, Via.timer1Continuous, Via.pending_timer1]

/-- Timer 2's part of a step, with its cases laid open. -/
theorem Via.timer2Step_eq (x : Via) :
    x.timer2Step =
      let y := { x with t2cL := (countDown x.t2cL x.t2cH).1, t2cH := (countDown x.t2cL x.t2cH).2 }
      if x.expires2 then if x.ifr.getLsbD 5 then y else Via.raiseFlag timer2Mask y else y := by
  simp only [Via.timer2Step, Via.expired_timer2, Via.timer2Expire, Via.pending_timer2]

/-! ## What a step leaves alone -/

@[simp] theorem Via.timer1Step_orb (x : Via) : x.timer1Step.orb = x.orb := by
  rw [Via.timer1Step_eq]; dsimp only; split_ifs <;> simp
@[simp] theorem Via.timer1Step_ora (x : Via) : x.timer1Step.ora = x.ora := by
  rw [Via.timer1Step_eq]; dsimp only; split_ifs <;> simp
@[simp] theorem Via.timer1Step_ddrb (x : Via) : x.timer1Step.ddrb = x.ddrb := by
  rw [Via.timer1Step_eq]; dsimp only; split_ifs <;> simp
@[simp] theorem Via.timer1Step_ddra (x : Via) : x.timer1Step.ddra = x.ddra := by
  rw [Via.timer1Step_eq]; dsimp only; split_ifs <;> simp
@[simp] theorem Via.timer1Step_t1lL (x : Via) : x.timer1Step.t1lL = x.t1lL := by
  rw [Via.timer1Step_eq]; dsimp only; split_ifs <;> simp
@[simp] theorem Via.timer1Step_t1lH (x : Via) : x.timer1Step.t1lH = x.t1lH := by
  rw [Via.timer1Step_eq]; dsimp only; split_ifs <;> simp
@[simp] theorem Via.timer1Step_t2cL (x : Via) : x.timer1Step.t2cL = x.t2cL := by
  rw [Via.timer1Step_eq]; dsimp only; split_ifs <;> simp
@[simp] theorem Via.timer1Step_t2cH (x : Via) : x.timer1Step.t2cH = x.t2cH := by
  rw [Via.timer1Step_eq]; dsimp only; split_ifs <;> simp
@[simp] theorem Via.timer1Step_sr (x : Via) : x.timer1Step.sr = x.sr := by
  rw [Via.timer1Step_eq]; dsimp only; split_ifs <;> simp
@[simp] theorem Via.timer1Step_acr (x : Via) : x.timer1Step.acr = x.acr := by
  rw [Via.timer1Step_eq]; dsimp only; split_ifs <;> simp
@[simp] theorem Via.timer1Step_pcr (x : Via) : x.timer1Step.pcr = x.pcr := by
  rw [Via.timer1Step_eq]; dsimp only; split_ifs <;> simp
@[simp] theorem Via.timer1Step_ier (x : Via) : x.timer1Step.ier = x.ier := by
  rw [Via.timer1Step_eq]; dsimp only; split_ifs <;> simp
@[simp] theorem Via.timer1Step_oraNh (x : Via) : x.timer1Step.oraNh = x.oraNh := by
  rw [Via.timer1Step_eq]; dsimp only; split_ifs <;> simp
@[simp] theorem Via.timer1Step_portA (x : Via) : x.timer1Step.portA = x.portA := by
  rw [Via.timer1Step_eq]; dsimp only; split_ifs <;> simp
@[simp] theorem Via.timer1Step_portB (x : Via) : x.timer1Step.portB = x.portB := by
  rw [Via.timer1Step_eq]; dsimp only; split_ifs <;> simp

@[simp] theorem Via.timer2Step_orb (x : Via) : x.timer2Step.orb = x.orb := by
  rw [Via.timer2Step_eq]; dsimp only; split_ifs <;> simp
@[simp] theorem Via.timer2Step_ora (x : Via) : x.timer2Step.ora = x.ora := by
  rw [Via.timer2Step_eq]; dsimp only; split_ifs <;> simp
@[simp] theorem Via.timer2Step_ddrb (x : Via) : x.timer2Step.ddrb = x.ddrb := by
  rw [Via.timer2Step_eq]; dsimp only; split_ifs <;> simp
@[simp] theorem Via.timer2Step_ddra (x : Via) : x.timer2Step.ddra = x.ddra := by
  rw [Via.timer2Step_eq]; dsimp only; split_ifs <;> simp
@[simp] theorem Via.timer2Step_t1cL (x : Via) : x.timer2Step.t1cL = x.t1cL := by
  rw [Via.timer2Step_eq]; dsimp only; split_ifs <;> simp
@[simp] theorem Via.timer2Step_t1cH (x : Via) : x.timer2Step.t1cH = x.t1cH := by
  rw [Via.timer2Step_eq]; dsimp only; split_ifs <;> simp
@[simp] theorem Via.timer2Step_t1lL (x : Via) : x.timer2Step.t1lL = x.t1lL := by
  rw [Via.timer2Step_eq]; dsimp only; split_ifs <;> simp
@[simp] theorem Via.timer2Step_t1lH (x : Via) : x.timer2Step.t1lH = x.t1lH := by
  rw [Via.timer2Step_eq]; dsimp only; split_ifs <;> simp
@[simp] theorem Via.timer2Step_sr (x : Via) : x.timer2Step.sr = x.sr := by
  rw [Via.timer2Step_eq]; dsimp only; split_ifs <;> simp
@[simp] theorem Via.timer2Step_acr (x : Via) : x.timer2Step.acr = x.acr := by
  rw [Via.timer2Step_eq]; dsimp only; split_ifs <;> simp
@[simp] theorem Via.timer2Step_pcr (x : Via) : x.timer2Step.pcr = x.pcr := by
  rw [Via.timer2Step_eq]; dsimp only; split_ifs <;> simp
@[simp] theorem Via.timer2Step_ier (x : Via) : x.timer2Step.ier = x.ier := by
  rw [Via.timer2Step_eq]; dsimp only; split_ifs <;> simp
@[simp] theorem Via.timer2Step_oraNh (x : Via) : x.timer2Step.oraNh = x.oraNh := by
  rw [Via.timer2Step_eq]; dsimp only; split_ifs <;> simp
@[simp] theorem Via.timer2Step_portA (x : Via) : x.timer2Step.portA = x.portA := by
  rw [Via.timer2Step_eq]; dsimp only; split_ifs <;> simp
@[simp] theorem Via.timer2Step_portB (x : Via) : x.timer2Step.portB = x.portB := by
  rw [Via.timer2Step_eq]; dsimp only; split_ifs <;> simp

@[simp] theorem Via.step_orb (x : Via) : x.step.orb = x.orb := by simp [Via.step]
@[simp] theorem Via.step_ora (x : Via) : x.step.ora = x.ora := by simp [Via.step]
@[simp] theorem Via.step_ddrb (x : Via) : x.step.ddrb = x.ddrb := by simp [Via.step]
@[simp] theorem Via.step_ddra (x : Via) : x.step.ddra = x.ddra := by simp [Via.step]
@[simp] theorem Via.step_t1lL (x : Via) : x.step.t1lL = x.t1lL := by simp [Via.step]
@[simp] theorem Via.step_t1lH (x : Via) : x.step.t1lH = x.t1lH := by simp [Via.step]
@[simp] theorem Via.step_sr (x : Via) : x.step.sr = x.sr := by simp [Via.step]
@[simp] theorem Via.step_acr (x : Via) : x.step.acr = x.acr := by simp [Via.step]
@[simp] theorem Via.step_pcr (x : Via) : x.step.pcr = x.pcr := by simp [Via.step]
@[simp] theorem Via.step_ier (x : Via) : x.step.ier = x.ier := by simp [Via.step]
@[simp] theorem Via.step_oraNh (x : Via) : x.step.oraNh = x.oraNh := by simp [Via.step]
@[simp] theorem Via.step_portA (x : Via) : x.step.portA = x.portA := by simp [Via.step]
@[simp] theorem Via.step_portB (x : Via) : x.step.portB = x.portB := by simp [Via.step]

@[simp] theorem Via.timer1Step_timer2 (x : Via) : x.timer1Step.timer2 = x.timer2 := by simp [Via.timer2]

@[simp] theorem Via.timer2Step_timer1 (x : Via) : x.timer2Step.timer1 = x.timer1 := by simp [Via.timer1]

@[simp] theorem Via.step_latch1 (x : Via) : x.step.latch1 = x.latch1 := by simp [Via.latch1]

/-! ## The counts -/

theorem Via.timer1_lt (x : Via) : x.timer1 < 65536 := by
  have := x.t1cL.isLt; have := x.t1cH.isLt; unfold Via.timer1; omega

theorem Via.timer2_lt (x : Via) : x.timer2 < 65536 := by
  have := x.t2cL.isLt; have := x.t2cH.isLt; unfold Via.timer2; omega

theorem Via.latch1_lt (x : Via) : x.latch1 < 65536 := by
  have := x.t1lL.isLt; have := x.t1lH.isLt; unfold Via.latch1; omega

/-- Timer 1 counts down by one modulo 65536, but for the reload of an expiry in continuous mode (R301, R302). -/
theorem Via.timer1Step_timer1 (x : Via) :
    x.timer1Step.timer1 = if x.expires1 && x.acr.getLsbD 6 then x.latch1 else (x.timer1 + 65535) % 65536 := by
  have h := countDown_value x.t1cL x.t1cH
  rw [Via.timer1Step_eq]
  dsimp only
  split_ifs <;> simp_all [Via.timer1, Via.latch1]

/-- Timer 2 counts down by one modulo 65536 (R301, R303). -/
theorem Via.timer2Step_timer2 (x : Via) : x.timer2Step.timer2 = (x.timer2 + 65535) % 65536 := by
  have h := countDown_value x.t2cL x.t2cH
  rw [Via.timer2Step_eq]
  dsimp only
  split_ifs <;> simp_all [Via.timer2]

theorem Via.step_timer1 (x : Via) :
    x.step.timer1 = if x.expires1 && x.acr.getLsbD 6 then x.latch1 else (x.timer1 + 65535) % 65536 := by
  simp [Via.step, Via.timer1Step_timer1]

theorem Via.step_timer2 (x : Via) : x.step.timer2 = (x.timer2 + 65535) % 65536 := by
  simp [Via.step, Via.timer2Step_timer2]

/-! ## The flags and the events -/

theorem Via.timer1Step_ifr (x : Via) (j : Nat) (hj : j < 8) :
    x.timer1Step.ifr.getLsbD j =
      (x.ifr.getLsbD j || decide (j = 6) && x.expires1 || decide (j = 7) && x.raises1 && x.ier.getLsbD 6) := by
  have hr := fun y => Via.raiseFlag_ifr (k := 6) (by omega) (m := timer1Mask) (by decide) y j hj
  rw [Via.timer1Step_eq]
  dsimp only
  unfold Via.raises1
  by_cases h6 : j = 6
  · subst h6; split_ifs <;> simp_all
  · split_ifs <;> simp_all

theorem Via.timer2Step_ifr (x : Via) (j : Nat) (hj : j < 8) :
    x.timer2Step.ifr.getLsbD j =
      (x.ifr.getLsbD j || decide (j = 5) && x.expires2 || decide (j = 7) && x.raises2 && x.ier.getLsbD 5) := by
  have hr := fun y => Via.raiseFlag_ifr (k := 5) (by omega) (m := timer2Mask) (by decide) y j hj
  rw [Via.timer2Step_eq]
  dsimp only
  unfold Via.raises2
  by_cases h5 : j = 5
  · subst h5; split_ifs <;> simp_all
  · split_ifs <;> simp_all

theorem Via.timer1Step_irqTrace (x : Via) :
    x.timer1Step.irqTrace = x.irqTrace ++ if x.raises1 && x.ier.getLsbD 6 then [.irq] else [] := by
  have hr := fun y => Via.raiseFlag_irqTrace (k := 6) (by omega) (m := timer1Mask) (by decide) y
  rw [Via.timer1Step_eq]
  dsimp only
  unfold Via.raises1
  split_ifs <;> simp_all

theorem Via.timer2Step_irqTrace (x : Via) :
    x.timer2Step.irqTrace = x.irqTrace ++ if x.raises2 && x.ier.getLsbD 5 then [.irq] else [] := by
  have hr := fun y => Via.raiseFlag_irqTrace (k := 5) (by omega) (m := timer2Mask) (by decide) y
  rw [Via.timer2Step_eq]
  dsimp only
  unfold Via.raises2
  split_ifs <;> simp_all

/-- Timer 2 sees the flag, the enable and the count it had before timer 1's part of the step. -/
theorem Via.timer1Step_raises2 (x : Via) : x.timer1Step.raises2 = x.raises2 := by
  have h5 := x.timer1Step_ifr 5 (by omega)
  simp only [Via.raises2, Via.expires2, Via.timer1Step_timer2, h5]
  simp

/-- Every flag after a step, bit by bit (R282, R302, R303). -/
theorem Via.step_ifr (x : Via) (j : Nat) (hj : j < 8) :
    x.step.ifr.getLsbD j =
      (x.ifr.getLsbD j || decide (j = 6) && x.expires1 || decide (j = 5) && x.expires2 ||
        decide (j = 7) && (x.raises1 && x.ier.getLsbD 6 || x.raises2 && x.ier.getLsbD 5)) := by
  have he : x.timer1Step.expires2 = x.expires2 := by simp [Via.expires2]
  rw [Via.step, Via.timer2Step_ifr _ j hj, Via.timer1Step_ifr _ j hj, he, Via.timer1Step_raises2, Via.timer1Step_ier]
  by_cases h7 : j = 7
  · subst h7; simp [Bool.or_assoc]
  · by_cases h6 : j = 6
    · subst h6; simp
    · simp [h6, h7]

/-- The events of a step: at most one from each timer, each only with its enable bit set (R343, R345). -/
theorem Via.step_irqTrace (x : Via) :
    x.step.irqTrace =
      x.irqTrace ++ (if x.raises1 && x.ier.getLsbD 6 then [.irq] else []) ++
        (if x.raises2 && x.ier.getLsbD 5 then [.irq] else []) := by
  rw [Via.step, Via.timer2Step_irqTrace, Via.timer1Step_irqTrace, Via.timer1Step_raises2, Via.timer1Step_ier]

end Sys2Proof.Machine
end

