-- ==== Sys2Proof/Laws/Pulse.lean ====
section
/-! SUPPORT. What a clock pulse does, in parts a proof can cite: the decode of port B, the PSG outside and inside reset, what
reaches the VIA, and the invariant (R320 to R325). -/

namespace Sys2Proof.Machine

/-! ## The decode -/

theorem decodeBus3_reset_iff (b : Byte) : decodeBus3 b = .reset ↔ b.getLsbD 2 = false := by
  unfold decodeBus3
  cases b.getLsbD 2 <;> cases b.getLsbD 1 <;> cases b.getLsbD 0 <;> simp

theorem decodeBus3_inactive_iff (b : Byte) :
    decodeBus3 b = .inactive ↔ b.getLsbD 2 = true ∧ b.getLsbD 1 = false ∧ b.getLsbD 0 = false := by
  unfold decodeBus3
  cases b.getLsbD 2 <;> cases b.getLsbD 1 <;> cases b.getLsbD 0 <;> simp

theorem decodeBus3_read_iff (b : Byte) :
    decodeBus3 b = .read ↔ b.getLsbD 2 = true ∧ b.getLsbD 1 = false ∧ b.getLsbD 0 = true := by
  unfold decodeBus3
  cases b.getLsbD 2 <;> cases b.getLsbD 1 <;> cases b.getLsbD 0 <;> simp

theorem decodeBus3_write_iff (b : Byte) :
    decodeBus3 b = .write ↔ b.getLsbD 2 = true ∧ b.getLsbD 1 = true ∧ b.getLsbD 0 = false := by
  unfold decodeBus3
  cases b.getLsbD 2 <;> cases b.getLsbD 1 <;> cases b.getLsbD 0 <;> simp

theorem decodeBus3_latch_iff (b : Byte) :
    decodeBus3 b = .latch ↔ b.getLsbD 2 = true ∧ b.getLsbD 1 = true ∧ b.getLsbD 0 = true := by
  unfold decodeBus3
  cases b.getLsbD 2 <;> cases b.getLsbD 1 <;> cases b.getLsbD 0 <;> simp

/-- The four actions outside reset by port B's low three bits. -/
theorem decodeBus3_low3 (b : Byte) :
    (b.extractLsb' 0 3 = 0b100#3 ↔ decodeBus3 b = .inactive) ∧ (b.extractLsb' 0 3 = 0b101#3 ↔ decodeBus3 b = .read) ∧
      (b.extractLsb' 0 3 = 0b110#3 ↔ decodeBus3 b = .write) ∧ (b.extractLsb' 0 3 = 0b111#3 ↔ decodeBus3 b = .latch) := by
  have h1 : ∀ b : Byte, b.extractLsb' 0 3 = 0b100#3 ↔ decodeBus3 b = .inactive := by decide
  have h2 : ∀ b : Byte, b.extractLsb' 0 3 = 0b101#3 ↔ decodeBus3 b = .read := by decide
  have h3 : ∀ b : Byte, b.extractLsb' 0 3 = 0b110#3 ↔ decodeBus3 b = .write := by decide
  have h4 : ∀ b : Byte, b.extractLsb' 0 3 = 0b111#3 ↔ decodeBus3 b = .latch := by decide
  exact ⟨h1 b, h2 b, h3 b, h4 b⟩

/-! ## The gated steps -/

@[simp] theorem State.synthStep_via (s : State) : s.synthStep.via = s.via := rfl
@[simp] theorem State.synthStep_fault (s : State) : s.synthStep.fault = s.fault := rfl
@[simp] theorem State.synthStep_result (s : State) : s.synthStep.result = s.result := rfl
@[simp] theorem State.synthStep_inbox (s : State) : s.synthStep.inbox = s.inbox := rfl
@[simp] theorem State.synthStep_regs (s : State) : s.synthStep.psg.regs = s.psg.regs := rfl
@[simp] theorem State.synthStep_sel (s : State) : s.synthStep.psg.sel = s.psg.sel := rfl
@[simp] theorem State.synthStep_env (s : State) : s.synthStep.psg.env = s.psg.env := rfl
@[simp] theorem State.synthStep_tick (s : State) : s.synthStep.psg.tick = s.psg.tick := rfl

@[simp] theorem State.envStep_via (s : State) : s.envStep.via = s.via := rfl
@[simp] theorem State.envStep_fault (s : State) : s.envStep.fault = s.fault := rfl
@[simp] theorem State.envStep_result (s : State) : s.envStep.result = s.result := rfl
@[simp] theorem State.envStep_draws (s : State) : s.envStep.draws = s.draws := rfl
@[simp] theorem State.envStep_inbox (s : State) : s.envStep.inbox = s.inbox := rfl
@[simp] theorem State.envStep_regs (s : State) : s.envStep.psg.regs = s.psg.regs := rfl
@[simp] theorem State.envStep_sel (s : State) : s.envStep.psg.sel = s.psg.sel := rfl
@[simp] theorem State.envStep_tone (s : State) : s.envStep.psg.tone = s.psg.tone := rfl
@[simp] theorem State.envStep_noise (s : State) : s.envStep.psg.noise = s.psg.noise := rfl
@[simp] theorem State.envStep_buf (s : State) : s.envStep.psg.buf = s.psg.buf := rfl
@[simp] theorem State.envStep_cursor (s : State) : s.envStep.psg.cursor = s.psg.cursor := rfl
@[simp] theorem State.envStep_tick (s : State) : s.envStep.psg.tick = s.psg.tick := rfl

@[simp] theorem State.tickUp_via (s : State) : s.tickUp.via = s.via := rfl
@[simp] theorem State.tickUp_fault (s : State) : s.tickUp.fault = s.fault := rfl
@[simp] theorem State.tickUp_tick (s : State) : s.tickUp.psg.tick = s.psg.tick + 1#8 := rfl

/-- What no gated step touches: everything outside the PSG but the draw count, and the PSG's registers, index and tick. -/
theorem State.gatedSteps_frame (s : State) :
    s.gatedSteps.via = s.via ∧ s.gatedSteps.fault = s.fault ∧ s.gatedSteps.result = s.result ∧
      s.gatedSteps.inbox = s.inbox ∧ s.gatedSteps.psg.regs = s.psg.regs ∧ s.gatedSteps.psg.sel = s.psg.sel ∧
      s.gatedSteps.psg.tick = s.psg.tick := by
  unfold State.gatedSteps
  split_ifs <;> exact ⟨rfl, rfl, rfl, rfl, rfl, rfl, rfl⟩

/-- A pulse whose new tick is no multiple of 16 runs no gated step (R322). -/
theorem State.gatedSteps_off {s : State} (h : s.psg.tick.toNat % 16 ≠ 0) : s.gatedSteps = s := by
  unfold State.gatedSteps; rw [if_neg h]

/-- A pulse whose new tick is a multiple of 16 but not 0 runs the synthesis step alone (R322, R323). -/
theorem State.gatedSteps_synth {s : State} (h : s.psg.tick.toNat % 16 = 0) (h0 : s.psg.tick ≠ 0#8) :
    s.gatedSteps = s.synthStep := by
  unfold State.gatedSteps; rw [if_pos h, if_neg h0]

/-- A pulse whose new tick is 0 runs the synthesis step and then the envelope step (R321, R324). -/
theorem State.gatedSteps_env {s : State} (h0 : s.psg.tick = 0#8) : s.gatedSteps = s.synthStep.envStep := by
  unfold State.gatedSteps
  rw [if_pos (by rw [h0]; rfl), if_pos h0]

/-! ## The pulse -/

/-- A shape row performs the envelope step with its own code (R107). -/
theorem exec_shapeOf (code : BitVec 4) (s : State) : exec (shapeOf code) s = .next (s.setPsg (s.psg.envStep code)) := by
  rcases index_cases code with h | h | h | h | h | h | h | h | h | h | h | h | h | h | h | h <;> subst h <;> rfl

theorem exec_clk (s : State) : exec .clk s = .next s.pulse := rfl

/-- The pulse's decode sees the port as it stood before the pulse: `VIA_STEP` moves no line (R300). -/
theorem State.pulse_eq (s : State) : s.pulse = (s.setVia s.via.step).busCycle (decodeBus3 s.via.portB) := by
  simp [State.pulse]

/-- In reset the pulse is `VIA_STEP` and the full reset and nothing else (R325). -/
theorem State.pulse_in_reset {s : State} (h : s.via.portB.getLsbD 2 = false) :
    s.pulse = { s with via := s.via.step, psg := Psg.reset } := by
  rw [State.pulse_eq, (decodeBus3_reset_iff _).mpr h]; rfl

/-- With the bus inactive the pulse is `VIA_STEP`, the tick and the gated steps (R132). -/
theorem State.pulse_inactive {s : State}
    (h : s.via.portB.getLsbD 2 = true ∧ s.via.portB.getLsbD 1 = false ∧ s.via.portB.getLsbD 0 = false) :
    s.pulse = (s.setVia s.via.step).tickUp.gatedSteps := by
  rw [State.pulse_eq, (decodeBus3_inactive_iff _).mpr h]; rfl

theorem State.busRead_via (s : State) : ∃ a, s.busRead.via = { s.via with portA := a } := by
  unfold State.busRead
  split
  · exact ⟨_, rfl⟩
  · exact ⟨s.via.portA, rfl⟩

@[simp] theorem State.busWrite_via (s : State) : s.busWrite.via = s.via := by
  unfold State.busWrite; split <;> rfl

@[simp] theorem State.busRead_psg (s : State) : s.busRead.psg = s.psg := by
  unfold State.busRead; split <;> rfl

@[simp] theorem State.busRead_result (s : State) : s.busRead.result = s.result := by
  unfold State.busRead; split <;> rfl
@[simp] theorem State.busRead_draws (s : State) : s.busRead.draws = s.draws := by
  unfold State.busRead; split <;> rfl
@[simp] theorem State.busRead_inbox (s : State) : s.busRead.inbox = s.inbox := by
  unfold State.busRead; split <;> rfl
@[simp] theorem State.busWrite_result (s : State) : s.busWrite.result = s.result := by
  unfold State.busWrite; split <;> rfl
@[simp] theorem State.busWrite_draws (s : State) : s.busWrite.draws = s.draws := by
  unfold State.busWrite; split <;> rfl
@[simp] theorem State.busWrite_inbox (s : State) : s.busWrite.inbox = s.inbox := by
  unfold State.busWrite; split <;> rfl

/-- What a bus write does to the PSG: nothing, or the write of port A to the selected register. -/
theorem State.busWrite_psg (s : State) :
    s.busWrite.psg = s.psg ∧ s.psg.selected = none ∨
      ∃ i, s.psg.selected = some i ∧ s.busWrite.psg = s.psg.write i s.via.portA := by
  unfold State.busWrite
  split
  · rename_i i h; exact Or.inr ⟨i, h, rfl⟩
  · rename_i h; exact Or.inl ⟨rfl, h⟩

/-- A bus access leaves the mark, or sets it because `sel` is above 15 (R136). -/
theorem State.busRead_fault (s : State) :
    s.busRead.fault = s.fault ∨ s.busRead.fault = some .indexOutOfRange ∧ 15 < s.psg.sel.toNat := by
  unfold State.busRead
  split
  · exact Or.inl rfl
  · rename_i h; exact Or.inr ⟨rfl, Psg.selected_eq_none.mp h⟩

/-- As `State.busRead_fault`, for a bus write. -/
theorem State.busWrite_fault (s : State) :
    s.busWrite.fault = s.fault ∨ s.busWrite.fault = some .indexOutOfRange ∧ 15 < s.psg.sel.toNat := by
  unfold State.busWrite
  split
  · exact Or.inl rfl
  · rename_i h; exact Or.inr ⟨rfl, Psg.selected_eq_none.mp h⟩

@[simp] theorem State.busLatch_via (s : State) : s.busLatch.via = s.via := rfl

theorem Via.with_portA_self {x : Via} {a : Byte} (h : x.portA = a) : { x with portA := a } = x := by
  subst h; rfl

@[simp] theorem Via.with_portA_timer1 (x : Via) (a : Byte) : ({ x with portA := a } : Via).timer1 = x.timer1 := rfl
@[simp] theorem Via.with_portA_timer2 (x : Via) (a : Byte) : ({ x with portA := a } : Via).timer2 = x.timer2 := rfl
@[simp] theorem Via.with_portA_latch1 (x : Via) (a : Byte) : ({ x with portA := a } : Via).latch1 = x.latch1 := rfl

theorem State.gatedSteps_via (s : State) : s.gatedSteps.via = s.via := s.gatedSteps_frame.1

/-- What reaches the VIA in a pulse: `VIA_STEP`, and port A where the action is `BUS_READ`. -/
theorem State.pulse_via (s : State) :
    ∃ a, s.pulse.via = { s.via.step with portA := a } ∧ (decodeBus3 s.via.portB ≠ .read → a = s.via.portA) := by
  have hw : s.via.step = { s.via.step with portA := s.via.portA } := (Via.with_portA_self (Via.step_portA s.via)).symm
  rw [State.pulse_eq]
  cases hb : decodeBus3 s.via.portB
  · exact ⟨s.via.portA, hw, fun _ => rfl⟩
  · exact ⟨s.via.portA, by simpa only [State.busCycle, State.gatedSteps_via, State.tickUp_via, State.setVia_via] using hw,
      fun _ => rfl⟩
  · obtain ⟨a, ha⟩ := (s.setVia s.via.step).busRead_via
    exact ⟨a, by simp only [State.busCycle, State.gatedSteps_via, State.tickUp_via, ha, State.setVia_via],
      fun h => absurd rfl h⟩
  · exact ⟨s.via.portA, by
      simpa only [State.busCycle, State.gatedSteps_via, State.tickUp_via, State.busWrite_via, State.setVia_via] using hw,
      fun _ => rfl⟩
  · exact ⟨s.via.portA, by
      simpa only [State.busCycle, State.gatedSteps_via, State.tickUp_via, State.busLatch_via, State.setVia_via] using hw,
      fun _ => rfl⟩

/-- What a pulse does to the timers, whatever the bus does: the counts of `VIA_STEP`; mode, latch and port B stay (R300). -/
theorem State.pulse_timers (s : State) :
    s.pulse.via.timer1 = (if s.via.expires1 && s.via.acr.getLsbD 6 then s.via.latch1 else (s.via.timer1 + 65535) % 65536) ∧
      s.pulse.via.timer2 = (s.via.timer2 + 65535) % 65536 ∧ s.pulse.via.acr = s.via.acr ∧
      s.pulse.via.latch1 = s.via.latch1 ∧ s.pulse.via.portB = s.via.portB := by
  obtain ⟨a, ha, -⟩ := s.pulse_via
  simp only [ha, Via.with_portA_timer1, Via.with_portA_timer2, Via.with_portA_latch1]
  exact ⟨s.via.step_timer1, s.via.step_timer2, s.via.step_acr, s.via.step_latch1, s.via.step_portB⟩

theorem State.gatedSteps_cursor (s : State) :
    s.gatedSteps.psg.cursor = if s.psg.tick.toNat % 16 = 0 then (s.psg.cursor + 1) % Config.bufCap else s.psg.cursor := by
  unfold State.gatedSteps
  split_ifs <;> rfl

/-- What a pulse outside reset does to the tick and the cursor, whatever the bus does, and to the registers and `sel` (R322,
R235). -/
theorem State.pulse_outside_reset {s : State} (h : s.via.portB.getLsbD 2 = true) :
    s.pulse.psg.tick = s.psg.tick + 1#8 ∧
      s.pulse.psg.cursor =
        (if (s.psg.tick + 1#8).toNat % 16 = 0 then (s.psg.cursor + 1) % Config.bufCap else s.psg.cursor) ∧
      (decodeBus3 s.via.portB ≠ .write → s.pulse.psg.regs = s.psg.regs) ∧
      (decodeBus3 s.via.portB ≠ .latch → s.pulse.psg.sel = s.psg.sel) := by
  have run : ∀ a : State, a.psg.cursor = s.psg.cursor → a.psg.tick = s.psg.tick →
      a.tickUp.gatedSteps.psg.tick = s.psg.tick + 1#8 ∧ a.tickUp.gatedSteps.psg.cursor =
        (if (s.psg.tick + 1#8).toNat % 16 = 0 then (s.psg.cursor + 1) % Config.bufCap else s.psg.cursor) ∧
      a.tickUp.gatedSteps.psg.regs = a.psg.regs ∧ a.tickUp.gatedSteps.psg.sel = a.psg.sel := fun a hc ht => by
    have f := a.tickUp.gatedSteps_frame
    refine ⟨by rw [f.2.2.2.2.2.2, State.tickUp_tick, ht], ?_, f.2.2.2.2.1, f.2.2.2.2.2.1⟩
    rw [State.gatedSteps_cursor, State.tickUp_tick, ht, ← hc]
    rfl
  rw [State.pulse_eq]
  cases hb : decodeBus3 s.via.portB
  · rw [(decodeBus3_reset_iff _).mp hb] at h; cases h
  · obtain ⟨h1, h2, h3, h4⟩ := run (s.setVia s.via.step) rfl rfl
    exact ⟨h1, h2, fun _ => h3, fun _ => h4⟩
  · obtain ⟨h1, h2, h3, h4⟩ := run (s.setVia s.via.step).busRead (by rw [State.busRead_psg]; rfl) (by rw [State.busRead_psg]; rfl)
    rw [State.busRead_psg] at h3 h4
    exact ⟨h1, h2, fun _ => h3, fun _ => h4⟩
  · obtain ⟨hp, -⟩ | ⟨i, -, hp⟩ := (s.setVia s.via.step).busWrite_psg
    · obtain ⟨h1, h2, -, h4⟩ := run (s.setVia s.via.step).busWrite (by rw [hp]; rfl) (by rw [hp]; rfl)
      rw [hp] at h4
      exact ⟨h1, h2, fun h => absurd rfl h, fun _ => h4⟩
    · have f := (s.setVia s.via.step).psg.write_frame i (s.setVia s.via.step).via.portA
      obtain ⟨h1, h2, -, h4⟩ := run (s.setVia s.via.step).busWrite (by rw [hp]; exact f.2.2.1) (by rw [hp]; exact f.2.2.2.1)
      rw [hp] at h4
      exact ⟨h1, h2, fun h => absurd rfl h, fun _ => h4.trans f.1⟩
  · obtain ⟨h1, h2, h3, -⟩ := run (s.setVia s.via.step).busLatch rfl rfl
    exact ⟨h1, h2, fun _ => h3, fun h => absurd rfl h⟩
/-! ## The invariant -/

theorem Inv.of_psg {s t : State} (h : Inv s) (hp : t.psg.Inv) (hv : t.via.ier = s.via.ier) : Inv t :=
  ⟨hp, by rw [hv]; exact h.enables⟩

theorem Inv.synthStep {s : State} (h : Inv s) : Inv s.synthStep := h.of_psg (h.psg.synthStep _ _) rfl

theorem Inv.envStep {s : State} (h : Inv s) : Inv s.envStep := h.of_psg (h.psg.envStep _) rfl

theorem Inv.gatedSteps {s : State} (h : Inv s) : Inv s.gatedSteps := by
  unfold State.gatedSteps
  split_ifs
  · exact h.synthStep.envStep
  · exact h.synthStep
  · exact h

theorem Inv.tickUp {s : State} (h : Inv s) : Inv s.tickUp := h.of_psg (h.psg.setTick _) rfl

theorem Inv.busReset {s : State} (h : Inv s) : Inv s.busReset := h.of_psg Psg.Inv.reset rfl

theorem Inv.busRead {s : State} (h : Inv s) : Inv s.busRead := by
  obtain ⟨a, ha⟩ := s.busRead_via
  exact h.of_psg (by rw [State.busRead_psg]; exact h.psg) (by rw [ha])

theorem Inv.busWrite {s : State} (h : Inv s) : Inv s.busWrite := by
  refine h.of_psg ?_ (by simp)
  unfold State.busWrite
  split
  · exact h.psg.write _ _
  · exact h.psg

theorem Inv.busLatch {s : State} (h : Inv s) : Inv s.busLatch := h.of_psg (h.psg.setSel _) rfl

theorem Inv.viaStep {s : State} (h : Inv s) : Inv (s.setVia s.via.step) := h.of_psg h.psg (by simp)

/-- A pulse keeps the invariant. -/
theorem Inv.pulse {s : State} (h : Inv s) : Inv s.pulse := by
  rw [State.pulse_eq]
  cases decodeBus3 s.via.portB
  · exact h.viaStep.busReset
  · exact h.viaStep.tickUp.gatedSteps
  · exact h.viaStep.busRead.tickUp.gatedSteps
  · exact h.viaStep.busWrite.tickUp.gatedSteps
  · exact h.viaStep.busLatch.tickUp.gatedSteps

/-! ## Runs of pulses -/

@[simp] theorem pulses_zero (s : State) : pulses 0 s = .next s := rfl

theorem pulses_succ (n : Nat) (s : State) : pulses (n + 1) s = pulses n s.pulse := rfl

/-- A run of pulses always answers a state: the iterate of the pulse (R11). -/
theorem pulses_eq (n : Nat) (s : State) : pulses n s = .next (State.pulse^[n] s) := by
  induction n generalizing s with
  | zero => rfl
  | succ n ih => rw [pulses_succ, ih, Function.iterate_succ_apply]

end Sys2Proof.Machine
end

