-- ==== Sys2Proof/Tests/Slice0.lean ====
section
/-! SUPPORT. The model's own tests. Expected results are the spec's: its encodings (spec/30_encoding.md), the examples of its
rules, and the vectors of spec/95_test_vectors.md. The last part shows, for every statement that has hypotheses, a state
and operands that meet them. -/

namespace Sys2Proof.Machine

/-- The state an instruction leaves. -/
def after (i : Instr) (s : State) : State :=
  match exec i s with
  | .next t => t
  | _ => s

/-- The creation state with a changed VIA. -/
def withVia (f : Via → Via) : State := State.reset.setVia (f State.reset.via)

/-- The creation state with a changed PSG. -/
def withPsg (f : Psg → Psg) : State := State.reset.setPsg (f State.reset.psg)

/-- RESET released, with given port B, port A, `sel` and tick. -/
def onBus (portB portA sel tick : Byte) : State :=
  (withVia fun x => { x with portB := portB, portA := portA }).setPsg { Psg.reset with sel := sel, tick := tick }

/-! ## Well-formedness (R114, R107): a bus action and a shape code are no operation of an agent -/

theorem test_ill_formed_bus_action : Instr.busRead.wellFormed = false := by decide
theorem test_ill_formed_shape : Instr.envShape0.wellFormed = false := by decide
theorem test_well_formed_operations : Instr.clk.wellFormed = true ∧ (Instr.psgWr13 0x0D#8).wellFormed = true := by decide

/-! ## Decoding, every constructor by a word written out bit by bit -/

/-- R102, with bits 7:3 of port B set in every other row (R101). -/
theorem test_decode_bus :
    decode .bus3 [0b00000000#8] = .ok (.busReset, []) ∧
    decode .bus3 [0b11111100#8] = .ok (.busInactive, []) ∧
    decode .bus3 [0b00000101#8] = .ok (.busRead, []) ∧
    decode .bus3 [0b11111110#8] = .ok (.busWrite, []) ∧
    decode .bus3 [0b00000111#8] = .ok (.busLatch, []) ∧
    decode .bus3 [0b11111001#8] = .ok (.busReset, []) ∧
    decode .bus3 [0b00000010#8] = .ok (.busReset, []) ∧
    decode .bus3 [0b10101011#8] = .ok (.busReset, []) := by decide

/-- `VIA_RD i` = `0x00 + i` (R112). -/
theorem test_decode_via_reads_low :
    decode .opw [0b00000000#8] = .ok (.viaRdIrb, []) ∧
    decode .opw [0b00000001#8] = .ok (.viaRdIra, []) ∧
    decode .opw [0b00000010#8] = .ok (.viaRdDdrb, []) ∧
    decode .opw [0b00000011#8] = .ok (.viaRdDdra, []) ∧
    decode .opw [0b00000100#8] = .ok (.viaRdT1cL, []) ∧
    decode .opw [0b00000101#8] = .ok (.viaRdT1cH, []) ∧
    decode .opw [0b00000110#8] = .ok (.viaRdT1lL, []) ∧
    decode .opw [0b00000111#8] = .ok (.viaRdT1lH, []) := by decide

/-- `VIA_RD i` = `0x00 + i` (R112). -/
theorem test_decode_via_reads_high :
    decode .opw [0b00001000#8] = .ok (.viaRdT2cL, []) ∧
    decode .opw [0b00001001#8] = .ok (.viaRdT2cH, []) ∧
    decode .opw [0b00001010#8] = .ok (.viaRdSr, []) ∧
    decode .opw [0b00001011#8] = .ok (.viaRdAcr, []) ∧
    decode .opw [0b00001100#8] = .ok (.viaRdPcr, []) ∧
    decode .opw [0b00001101#8] = .ok (.viaRdIfr, []) ∧
    decode .opw [0b00001110#8] = .ok (.viaRdIer, []) ∧
    decode .opw [0b00001111#8] = .ok (.viaRdOraNh, []) := by decide

/-- `PSG_RD i` = `0x40 + i` (R112). -/
theorem test_decode_psg_reads_low :
    decode .opw [0b01000000#8] = .ok (.psgRd0, []) ∧
    decode .opw [0b01000001#8] = .ok (.psgRd1, []) ∧
    decode .opw [0b01000010#8] = .ok (.psgRd2, []) ∧
    decode .opw [0b01000011#8] = .ok (.psgRd3, []) ∧
    decode .opw [0b01000100#8] = .ok (.psgRd4, []) ∧
    decode .opw [0b01000101#8] = .ok (.psgRd5, []) ∧
    decode .opw [0b01000110#8] = .ok (.psgRd6, []) ∧
    decode .opw [0b01000111#8] = .ok (.psgRd7, []) := by decide

/-- `PSG_RD i` = `0x40 + i` (R112). -/
theorem test_decode_psg_reads_high :
    decode .opw [0b01001000#8] = .ok (.psgRd8, []) ∧
    decode .opw [0b01001001#8] = .ok (.psgRd9, []) ∧
    decode .opw [0b01001010#8] = .ok (.psgRd10, []) ∧
    decode .opw [0b01001011#8] = .ok (.psgRd11, []) ∧
    decode .opw [0b01001100#8] = .ok (.psgRd12, []) ∧
    decode .opw [0b01001101#8] = .ok (.psgRd13, []) ∧
    decode .opw [0b01001110#8] = .ok (.psgRd14, []) ∧
    decode .opw [0b01001111#8] = .ok (.psgRd15, []) := by decide

/-- `CLK` = `0x80`, `DRAIN` = `0xC0` (R112). -/
theorem test_decode_clk_drain :
    decode .opw [0b10000000#8] = .ok (.clk, []) ∧
    decode .opw [0b11000000#8] = .ok (.drain, []) := by decide

/-- `VIA_WR i, v` = `0x10 + i`, `v` (R112). -/
theorem test_decode_via_writes_low :
    decode .opw [0b00010000#8, 0xA5#8] = .ok (.viaWrOrb 0xA5#8, []) ∧
    decode .opw [0b00010001#8, 0xA5#8] = .ok (.viaWrOra 0xA5#8, []) ∧
    decode .opw [0b00010010#8, 0xA5#8] = .ok (.viaWrDdrb 0xA5#8, []) ∧
    decode .opw [0b00010011#8, 0xA5#8] = .ok (.viaWrDdra 0xA5#8, []) ∧
    decode .opw [0b00010100#8, 0xA5#8] = .ok (.viaWrT1cL 0xA5#8, []) ∧
    decode .opw [0b00010101#8, 0xA5#8] = .ok (.viaWrT1cH 0xA5#8, []) ∧
    decode .opw [0b00010110#8, 0xA5#8] = .ok (.viaWrT1lL 0xA5#8, []) ∧
    decode .opw [0b00010111#8, 0xA5#8] = .ok (.viaWrT1lH 0xA5#8, []) := by decide

/-- `VIA_WR i, v` = `0x10 + i`, `v` (R112). -/
theorem test_decode_via_writes_high :
    decode .opw [0b00011000#8, 0xA5#8] = .ok (.viaWrT2cL 0xA5#8, []) ∧
    decode .opw [0b00011001#8, 0xA5#8] = .ok (.viaWrT2cH 0xA5#8, []) ∧
    decode .opw [0b00011010#8, 0xA5#8] = .ok (.viaWrSr 0xA5#8, []) ∧
    decode .opw [0b00011011#8, 0xA5#8] = .ok (.viaWrAcr 0xA5#8, []) ∧
    decode .opw [0b00011100#8, 0xA5#8] = .ok (.viaWrPcr 0xA5#8, []) ∧
    decode .opw [0b00011101#8, 0xA5#8] = .ok (.viaWrIfr 0xA5#8, []) ∧
    decode .opw [0b00011110#8, 0xA5#8] = .ok (.viaWrIer 0xA5#8, []) ∧
    decode .opw [0b00011111#8, 0xA5#8] = .ok (.viaWrOraNh 0xA5#8, []) := by decide

/-- `PSG_WR i, v` = `0x50 + i`, `v` (R112). -/
theorem test_decode_psg_writes_low :
    decode .opw [0b01010000#8, 0xA5#8] = .ok (.psgWr0 0xA5#8, []) ∧
    decode .opw [0b01010001#8, 0xA5#8] = .ok (.psgWr1 0xA5#8, []) ∧
    decode .opw [0b01010010#8, 0xA5#8] = .ok (.psgWr2 0xA5#8, []) ∧
    decode .opw [0b01010011#8, 0xA5#8] = .ok (.psgWr3 0xA5#8, []) ∧
    decode .opw [0b01010100#8, 0xA5#8] = .ok (.psgWr4 0xA5#8, []) ∧
    decode .opw [0b01010101#8, 0xA5#8] = .ok (.psgWr5 0xA5#8, []) ∧
    decode .opw [0b01010110#8, 0xA5#8] = .ok (.psgWr6 0xA5#8, []) ∧
    decode .opw [0b01010111#8, 0xA5#8] = .ok (.psgWr7 0xA5#8, []) := by decide

/-- `PSG_WR i, v` = `0x50 + i`, `v` (R112). -/
theorem test_decode_psg_writes_high :
    decode .opw [0b01011000#8, 0xA5#8] = .ok (.psgWr8 0xA5#8, []) ∧
    decode .opw [0b01011001#8, 0xA5#8] = .ok (.psgWr9 0xA5#8, []) ∧
    decode .opw [0b01011010#8, 0xA5#8] = .ok (.psgWr10 0xA5#8, []) ∧
    decode .opw [0b01011011#8, 0xA5#8] = .ok (.psgWr11 0xA5#8, []) ∧
    decode .opw [0b01011100#8, 0xA5#8] = .ok (.psgWr12 0xA5#8, []) ∧
    decode .opw [0b01011101#8, 0xA5#8] = .ok (.psgWr13 0xA5#8, []) ∧
    decode .opw [0b01011110#8, 0xA5#8] = .ok (.psgWr14 0xA5#8, []) ∧
    decode .opw [0b01011111#8, 0xA5#8] = .ok (.psgWr15 0xA5#8, []) := by decide

/-- R107, with bits 7:4 of register 13 set in every other row. -/
theorem test_decode_shapes_low :
    decode .fields [0b00000000#8] = .ok (.envShape0, []) ∧
    decode .fields [0b11110001#8] = .ok (.envShape1, []) ∧
    decode .fields [0b00000010#8] = .ok (.envShape2, []) ∧
    decode .fields [0b11110011#8] = .ok (.envShape3, []) ∧
    decode .fields [0b00000100#8] = .ok (.envShape4, []) ∧
    decode .fields [0b11110101#8] = .ok (.envShape5, []) ∧
    decode .fields [0b00000110#8] = .ok (.envShape6, []) ∧
    decode .fields [0b11110111#8] = .ok (.envShape7, []) := by decide

/-- R107, with bits 7:4 of register 13 set in every other row. -/
theorem test_decode_shapes_high :
    decode .fields [0b00001000#8] = .ok (.envShape8, []) ∧
    decode .fields [0b11111001#8] = .ok (.envShape9, []) ∧
    decode .fields [0b00001010#8] = .ok (.envShapeA, []) ∧
    decode .fields [0b11111011#8] = .ok (.envShapeB, []) ∧
    decode .fields [0b00001100#8] = .ok (.envShapeC, []) ∧
    decode .fields [0b11111101#8] = .ok (.envShapeD, []) ∧
    decode .fields [0b00001110#8] = .ok (.envShapeE, []) ∧
    decode .fields [0b11111111#8] = .ok (.envShapeF, []) := by decide

/-- R112: "Every other word (bit 5 set, or a nonzero low field with class 0b10 or 0b11) is not an operation". -/
theorem test_unassigned_words :
    decode .opw [0b00100000#8] = .error (.notAnOperation 0x20#8) ∧
    decode .opw [0b01111111#8, 0x00#8] = .error (.notAnOperation 0x7F#8) ∧
    decode .opw [0b10000001#8] = .error (.notAnOperation 0x81#8) ∧
    decode .opw [0b10010000#8, 0x00#8] = .error (.notAnOperation 0x90#8) ∧
    decode .opw [0b11001000#8] = .error (.notAnOperation 0xC8#8) ∧
    decode .opw [0b10100000#8] = .error (.notAnOperation 0xA0#8) := by decide

/-- A write word with no value byte after it (log 8). -/
theorem test_missing_operand : decode .opw [0b01010111#8] = .error (.missingOperand 0x57#8) := by decide

/-- The numbering of the opcode table: whole bytes are operation words, 3 and 4 bits the two fields (log 10). -/
theorem test_table_words :
    decodeTableWord 8 0x80 = some .clk ∧ decodeTableWord 8 0x5D = some (.psgWr13 0x00#8) ∧
    decodeTableWord 16 0x0D5D = some (.psgWr13 0x0D#8) ∧ decodeTableWord 3 0b110 = some .busWrite ∧
    decodeTableWord 4 0xE = some .envShapeE ∧ decodeTableWord 8 0x20 = none := by decide

/-- The bytes of spec/95_test_vectors.md P1: `VIA_INIT_BUS`, `PSG_SET 7, 0x3E`. -/
theorem test_program_bytes :
    assemble viaInitBus = [0x12#8, 0x07#8, 0x13#8, 0xFF#8, 0x10#8, 0x04#8] ∧
    assemble (psgSet 0x07#8 0x3E#8) =
      [0x11#8, 0x07#8, 0x10#8, 0x07#8, 0x80#8, 0x10#8, 0x04#8,
       0x11#8, 0x3E#8, 0x10#8, 0x06#8, 0x80#8, 0x10#8, 0x04#8] := by decide

/-! ## The bus (vectors V1, rule examples) -/

/-- R131's example: `port_b = 0x03`, any PSG state. -/
theorem test_bus_reset :
    (after .clk (onBus 0x03#8 0x55#8 0x07#8 0x01#8)).psg.sel = 0x00#8 ∧
    (after .clk (onBus 0x03#8 0x55#8 0x07#8 0x01#8)).psg.tick = 0x00#8 ∧
    (after .clk (onBus 0x03#8 0x55#8 0x07#8 0x01#8)).via.portA = 0x55#8 := by decide

/-- V1, row 0xFC. -/
theorem test_bus_inactive :
    (after .clk (onBus 0xFC#8 0x55#8 0x07#8 0x01#8)).psg.tick = 0x02#8 ∧
    (after .clk (onBus 0xFC#8 0x55#8 0x07#8 0x01#8)).psg.sel = 0x07#8 := by decide

/-- V1, row 0xFD: register 7 holds 0x3E. -/
theorem test_bus_read :
    (after .clk (after (.psgWr7 0x3E#8) (onBus 0xFD#8 0x55#8 0x07#8 0x01#8))).via.portA = 0x3E#8 := by decide

/-- V1, row 0xFE, and its case (d): 15 is the largest legal index. -/
theorem test_bus_write :
    (after .clk (onBus 0xFE#8 0x55#8 0x07#8 0x01#8)).psg.regs[7] = 0x55#8 ∧
    (after .clk (onBus 0x06#8 0x55#8 0x0F#8 0x01#8)).psg.regs[15] = 0x55#8 ∧
    (after .clk (onBus 0x06#8 0x55#8 0x0F#8 0x01#8)).fault = none := by decide

/-- R134's example: the write has the side effects of `PSG_WR 0`. -/
theorem test_bus_write_side_effect :
    (after .busWrite (onBus 0x06#8 64#8 0x00#8 0x01#8)).psg.tone[0].period = 64#12 ∧
    (after .busWrite (onBus 0x06#8 64#8 0x00#8 0x01#8)).psg.tone[0].counter = 64#12 := by decide

/-- V1, row 0xFF: a latch of 0x55 is accepted. -/
theorem test_bus_latch :
    (after .clk (onBus 0xFF#8 0x55#8 0x07#8 0x01#8)).psg.sel = 0x55#8 ∧
    (after .clk (onBus 0xFF#8 0x55#8 0x07#8 0x01#8)).fault = none := by decide

/-- R136's example: `sel = 0x10`. -/
theorem test_bus_fault :
    (after .clk (onBus 0x06#8 0x55#8 0x10#8 0x01#8)).fault = some .indexOutOfRange ∧
    (after .clk (onBus 0x06#8 0x55#8 0x10#8 0x01#8)).psg.regs = State.reset.psg.regs ∧
    (after .clk (onBus 0x06#8 0x55#8 0x10#8 0x01#8)).psg.tick = 0x02#8 := by decide

/-! ## The PSG's registers (V2, rule examples) -/

/-- V2: `PSG_WR 1, 0xF2`, then `PSG_WR 0, 0x34`. -/
theorem test_psg_write_tone :
    (after (.psgWr1 0xF2#8) State.reset).psg.tone[0].period = 0x200#12 ∧
    (after (.psgWr0 0x34#8) (after (.psgWr1 0xF2#8) State.reset)).psg.tone[0].counter = 0x234#12 ∧
    (after .psgRd1 (after (.psgWr1 0xF2#8) State.reset)).result = .byte 0xF2#8 := by decide

/-- R154's and R155's examples: channels B and C. -/
theorem test_psg_write_tone_channels :
    (after (.psgWr3 0x02#8) (after (.psgWr2 0x10#8) State.reset)).psg.tone[1].counter = 528#12 ∧
    (after (.psgWr4 0xFF#8) (after (.psgWr5 0x0F#8) State.reset)).psg.tone[2].period = 4095#12 := by decide

/-- V2: a period of 0 loads the counter with 1, and the period stays 0. -/
theorem test_psg_write_period_zero :
    (after (.psgWr5 0x10#8) State.reset).psg.tone[2].period = 0#12 ∧
    (after (.psgWr5 0x10#8) State.reset).psg.tone[2].counter = 1#12 := by decide

/-- R157's example, and V2's `PSG_WR 6, 0xE0`. -/
theorem test_psg_write_noise :
    (after (.psgWr6 0x25#8) State.reset).psg.noise.counter = 5#5 ∧
    (after (.psgWr6 0x25#8) State.reset).psg.regs[6] = 0x25#8 ∧
    (after (.psgWr6 0xE0#8) State.reset).psg.noise.counter = 1#5 := by decide

/-- V2: bits no generator uses are stored and read back (registers 7, 8, 14). -/
theorem test_psg_storage :
    (after .psgRd7 (after (.psgWr7 0xFF#8) State.reset)).result = .byte 0xFF#8 ∧
    (after .psgRd8 (after (.psgWr8 0xFF#8) State.reset)).result = .byte 0xFF#8 ∧
    (after .psgRd14 (after (.psgWr14 0xAA#8) State.reset)).result = .byte 0xAA#8 := by decide

/-- V2: `PSG_WR 13, 0xF5` restarts the envelope and keeps its level. -/
theorem test_psg_write_shape :
    (after (.psgWr13 0xF5#8) (withPsg fun p => { p with env := ⟨9#17, 4, 6#4⟩ })).psg.env = ⟨1#17, 0, 6#4⟩ ∧
    shapeCode (after (.psgWr13 0xF5#8) State.reset).psg.regs[13] = 0x5#4 := by decide

/-! ## Dividers, envelope, mixer and buffer (V3, V5, V6, V7) -/

/-- V3, p = 3: three steps from (3, 0). -/
theorem test_tone_step :
    (ToneChannel.step ⟨3#12, 3#12, false⟩).counter = 2#12 ∧
    ToneChannel.step ⟨3#12, 1#12, false⟩ = ⟨3#12, 3#12, true⟩ := by decide

/-- V3, p = 0: the stored period stays 0 and every step toggles. -/
theorem test_tone_step_period_zero : ToneChannel.step ⟨0#12, 1#12, false⟩ = ⟨0#12, 1#12, true⟩ := by decide

/-- V4: a bit is used only at a reload. -/
theorem test_noise_step :
    NoiseGen.step true ⟨2#5, 2#5, false⟩ = ⟨2#5, 1#5, false⟩ ∧ NoiseGen.step true ⟨2#5, 1#5, false⟩ = ⟨2#5, 2#5, true⟩ := by
  decide

/-- V5: positions for L = 1, 3, 5, 17, 65536 at chosen places. -/
theorem test_envelope_position :
    envPosition 1 1 = 0 ∧ envPosition 3 2 = 5 ∧ envPosition 5 1 = 12 ∧ envPosition 17 16 = 0 ∧ envPosition 17 1 = 15 ∧
    envPosition 65536 1 = 15 ∧ envPosition 4 11 = 0 ∧ envPosition 32 17 = 7 := by decide

/-- R212's example: restart, L = 4, shape 0xC. -/
theorem test_envelope_first_step : Envelope.step 0xC#4 4 ⟨1#17, 0, 0#4⟩ = ⟨4#17, 1, 0#4⟩ := by decide
theorem test_envelope_later_step : Envelope.step 0xC#4 4 ⟨4#17, 1, 0#4⟩ = ⟨3#17, 1, 4#4⟩ := by decide

/-- V5: `L` is 65536 at most, in 17 bits. -/
theorem test_envelope_longest : Envelope.step 0x0#4 65536 ⟨1#17, 0, 0#4⟩ = ⟨65536#17, 1, 15#4⟩ := by decide

/-- One envelope step before the second period, L = 4. -/
def secondPeriod : State := withPsg fun p => { (p.store 11 3#8) with env := ⟨1#17, 1, 5#4⟩ }

/-- V5's table, the first value of the second period. -/
theorem test_shapes_second_period_low :
    (after .envShape0 secondPeriod).psg.env.value = 0#4 ∧
    (after .envShape1 secondPeriod).psg.env.value = 0#4 ∧
    (after .envShape2 secondPeriod).psg.env.value = 0#4 ∧
    (after .envShape3 secondPeriod).psg.env.value = 0#4 ∧
    (after .envShape4 secondPeriod).psg.env.value = 0#4 ∧
    (after .envShape5 secondPeriod).psg.env.value = 0#4 ∧
    (after .envShape6 secondPeriod).psg.env.value = 0#4 ∧
    (after .envShape7 secondPeriod).psg.env.value = 0#4 := by decide

/-- V5's table, the first value of the second period. -/
theorem test_shapes_second_period_high :
    (after .envShape8 secondPeriod).psg.env.value = 15#4 ∧
    (after .envShape9 secondPeriod).psg.env.value = 0#4 ∧
    (after .envShapeA secondPeriod).psg.env.value = 0#4 ∧
    (after .envShapeB secondPeriod).psg.env.value = 15#4 ∧
    (after .envShapeC secondPeriod).psg.env.value = 0#4 ∧
    (after .envShapeD secondPeriod).psg.env.value = 15#4 ∧
    (after .envShapeE secondPeriod).psg.env.value = 15#4 ∧
    (after .envShapeF secondPeriod).psg.env.value = 0#4 := by decide

/-- One envelope step into the first period, L = 4. -/
def firstPeriod : State := withPsg fun p => { (p.store 11 3#8) with env := ⟨4#17, 1, 5#4⟩ }

/-- V5's table, the second value of the first period. -/
theorem test_shapes_first_period_low :
    (after .envShape0 firstPeriod).psg.env.value = 11#4 ∧
    (after .envShape1 firstPeriod).psg.env.value = 11#4 ∧
    (after .envShape2 firstPeriod).psg.env.value = 11#4 ∧
    (after .envShape3 firstPeriod).psg.env.value = 11#4 ∧
    (after .envShape4 firstPeriod).psg.env.value = 4#4 ∧
    (after .envShape5 firstPeriod).psg.env.value = 4#4 ∧
    (after .envShape6 firstPeriod).psg.env.value = 4#4 ∧
    (after .envShape7 firstPeriod).psg.env.value = 4#4 := by decide

/-- V5's table, the second value of the first period. -/
theorem test_shapes_first_period_high :
    (after .envShape8 firstPeriod).psg.env.value = 11#4 ∧
    (after .envShape9 firstPeriod).psg.env.value = 11#4 ∧
    (after .envShapeA firstPeriod).psg.env.value = 11#4 ∧
    (after .envShapeB firstPeriod).psg.env.value = 11#4 ∧
    (after .envShapeC firstPeriod).psg.env.value = 4#4 ∧
    (after .envShapeD firstPeriod).psg.env.value = 4#4 ∧
    (after .envShapeE firstPeriod).psg.env.value = 4#4 ∧
    (after .envShapeF firstPeriod).psg.env.value = 4#4 := by decide

/-- V6's states: mixer, amplitudes, tone signals, noise signal, envelope level. -/
def mixState (mixer a b c : Byte) (ta tb tc n : Bool) (env : BitVec 4) : Psg :=
  { ((((Psg.reset.store 7 mixer).store 8 a).store 9 b).store 10 c) with
    tone := #v[⟨1#12, 1#12, ta⟩, ⟨1#12, 1#12, tb⟩, ⟨1#12, 1#12, tc⟩]
    noise := ⟨1#5, 1#5, n⟩
    env := ⟨1#17, 1, env⟩ }

/-- V6: only tone A; and tone OR noise is 1, not 2 (D18). -/
theorem test_mix_gates :
    mixSample 1 (mixState 0x3E#8 0x0F#8 0#8 0#8 true false false false 0#4) = 15#8 ∧
    mixSample 1 (mixState 0x00#8 0x0F#8 0x0F#8 0x0F#8 true true true true 0#4) = 45#8 := by decide

/-- V6: the product wraps and is never clamped. -/
theorem test_mix_wraps :
    mixSample 6 (mixState 0x38#8 0x0F#8 0x0F#8 0x0F#8 true true true false 0#4) = 14#8 ∧
    mixSample 16 (mixState 0x38#8 0x0F#8 0x0F#8 0x0F#8 true true true false 0#4) = 208#8 := by decide

/-- V6: envelope mode, and bits 7:5 of an amplitude ignored. -/
theorem test_mix_levels :
    mixSample 1 (mixState 0x38#8 0x1F#8 0x10#8 0x05#8 true true true false 9#4) = 23#8 ∧
    mixSample 1 (mixState 0x38#8 0xFF#8 0xE3#8 0x20#8 true true false false 7#4) = 10#8 ∧
    mixSample 1 (mixState 0x1E#8 0x03#8 0x04#8 0x05#8 true false false true 0#4) = 8#8 := by decide

/-- R234's example: `BUF_CAP = 4`, `cursor = 3`. -/
theorem test_append :
    (Psg.append 4 7#8 { Psg.reset with cursor := 3 }).cursor = 0 ∧
    Memory.samples 4 (Psg.append 4 7#8 { Psg.reset with cursor := 3 }).buf = [0#8, 0#8, 0#8, 7#8] := by decide

/-- R237's example: `DRAIN` after appends of 5, 6, 7; and a cell written 0 leaves the list. -/
theorem test_drain :
    (after .drain (withPsg fun p => { p with buf := [(0, 5#8), (1, 6#8), (2, 7#8)], cursor := 3 })).result =
      .drained [(0, 5#8), (1, 6#8), (2, 7#8)] 3 ∧
    Memory.write [(0, 5#8), (1, 6#8)] 0 0#8 = [(1, 6#8)] := by decide

/-! ## The VIA's registers (V8) -/

/-- V8's table of `merge`. -/
theorem test_merge :
    mergeBits 0xFF#8 0x0F#8 0x00#8 = 0x0F#8 ∧ mergeBits 0x00#8 0x0F#8 0xFF#8 = 0xF0#8 ∧
    mergeBits 0xA5#8 0xF0#8 0x3C#8 = 0xAC#8 ∧ mergeBits 0x07#8 0x07#8 0xF8#8 = 0xFF#8 := by decide

/-- V8, port B: only output pins are driven; a direction write moves no line; the read writes the slot. -/
theorem test_port_b :
    (after (.viaWrOrb 0xFF#8) State.reset).via.portB = 0x00#8 ∧
    (after (.viaWrDdrb 0x07#8) (withVia fun x => { x with orb := 0xFF#8 })).via.portB = 0x00#8 ∧
    (after (.viaWrOrb 0xA5#8) (withVia fun x => { x with ddrb := 0x07#8 })).via.portB = 0x05#8 := by decide

/-- R266's example. -/
theorem test_read_port_b :
    (after .viaRdIrb (withVia fun x => { x with orb := 0xF4#8, ddrb := 0x07#8, portB := 0x0C#8 })).result = .byte 0x0C#8 ∧
    (after .viaRdIrb (withVia fun x => { x with orb := 0xF4#8, ddrb := 0x07#8, portB := 0x0C#8 })).via.orb = 0x0C#8 := by
  decide

/-- R251's and R267's examples. -/
theorem test_port_a :
    (after (.viaWrOra 0x55#8) (withVia fun x => { x with ddra := 0xF0#8, portA := 0x0A#8 })).via.portA = 0x5A#8 ∧
    (after .viaRdIra (withVia fun x => { x with ora := 0x07#8, portA := 0x3E#8 })).result = .byte 0x3E#8 ∧
    (after .viaRdIra (withVia fun x => { x with ora := 0x07#8, portA := 0x3E#8, ddra := 0xFF#8 })).result = .byte 0x07#8 := by
  decide

/-- V8, the sequence of `VIA_WR IER`. -/
theorem test_write_ier :
    (after (.viaWrIer 0xC0#8) State.reset).via.ier = 0xC0#8 ∧ (after (.viaWrIer 0x20#8) State.reset).via.ier = 0xDF#8 ∧
    (after (.viaWrIer 0x7F#8) State.reset).via.ier = 0x80#8 ∧ (after (.viaWrIer 0x00#8) State.reset).via.ier = 0xFF#8 := by
  decide

/-- R254's example: the latch, not the counter. -/
theorem test_write_t1cL :
    (after (.viaWrT1cL 0x10#8) (withVia fun x => { x with t1cL := 0x33#8 })).via.t1lL = 0x10#8 ∧
    (after (.viaWrT1cL 0x10#8) (withVia fun x => { x with t1cL := 0x33#8 })).via.t1cL = 0x33#8 := by decide

/-- R255's example and V8's row with `IFR` 0xE0. -/
theorem test_write_t1cH :
    (after (.viaWrT1cH 0x27#8) (withVia fun x => { x with t1lL := 0x10#8, ifr := 0xC0#8 })).via.timer1 = 10000 ∧
    (after (.viaWrT1cH 0x27#8) (withVia fun x => { x with t1lL := 0x10#8, ifr := 0xC0#8 })).via.ifr = 0x00#8 ∧
    (after (.viaWrT1cH 0x12#8) (withVia fun x => { x with ifr := 0xE0#8 })).via.ifr = 0xA0#8 := by decide

/-- V8: clearing timer 2's flag. -/
theorem test_write_t2cH :
    (after (.viaWrT2cH 0x00#8) (withVia fun x => { x with t2cL := 0x05#8, ifr := 0xA0#8 })).via.timer2 = 5 ∧
    (after (.viaWrT2cH 0x00#8) (withVia fun x => { x with ifr := 0xE0#8 })).via.ifr = 0xC0#8 := by decide

/-- V8: reads that clear, with a flag no timer raised, and with no flag at all. -/
theorem test_read_timer_low :
    (after .viaRdT1cL (withVia fun x => { x with ifr := 0xC1#8 })).via.ifr = 0x81#8 ∧
    (after .viaRdT1cL (withVia fun x => { x with ifr := 0x80#8 })).via.ifr = 0x00#8 ∧
    (after .viaRdT2cL (withVia fun x => { x with ifr := 0x60#8 })).via.ifr = 0x40#8 := by decide

/-- V8: the flag register is plain storage; `T1L_H` clears no flag. -/
theorem test_write_plain :
    (after (.viaWrIfr 0x40#8) (withVia fun x => { x with ifr := 0xFF#8 })).via.ifr = 0x40#8 ∧
    (after (.viaWrT1lH 0x88#8) (withVia fun x => { x with ifr := 0xC0#8 })).via.ifr = 0xC0#8 ∧
    (after (.viaWrT2cL 0x55#8) State.reset).via.t2cL = 0x55#8 := by decide

/-- R279's example and R271's. -/
theorem test_read_plain :
    (after .viaRdIfr (withVia fun x => { x with ifr := 0xC0#8 })).result = .byte 0xC0#8 ∧
    (after .viaRdIfr (withVia fun x => { x with ifr := 0xC0#8 })).via.ifr = 0xC0#8 ∧
    (after .viaRdT1cH (withVia fun x => { x with t1cH := 0x27#8 })).result = .byte 0x27#8 := by decide

/-! ## Timers (V9, rule examples) -/

/-- R301's corner cases. -/
theorem test_count_down :
    countDown 0x01#8 0x00#8 = (0x00#8, 0x00#8) ∧ countDown 0x00#8 0x00#8 = (0xFF#8, 0xFF#8) ∧
    countDown 0x00#8 0x01#8 = (0xFF#8, 0x00#8) ∧ expired (0x00#8, 0x00#8) = true ∧ expired (0xFF#8, 0xFF#8) = false := by
  decide

/-- R302's example: continuous mode. -/
theorem test_timer1_continuous :
    (Via.step { Via.creation with acr := 0x40#8, t1lL := 0x03#8, t1cL := 0x01#8, ier := 0xC0#8 }).timer1 = 3 ∧
    (Via.step { Via.creation with acr := 0x40#8, t1lL := 0x03#8, t1cL := 0x01#8, ier := 0xC0#8 }).ifr = 0xC0#8 ∧
    (Via.step { Via.creation with acr := 0x40#8, t1lL := 0x03#8, t1cL := 0x01#8, ier := 0xC0#8 }).irqTrace = [.irq] := by
  decide

/-- R302 (b), R386: one-shot with the flag pending does nothing, even enabled. -/
theorem test_timer1_pending :
    (Via.step { Via.creation with t1cL := 0x01#8, ier := 0xC0#8, ifr := 0x40#8 }).ifr = 0x40#8 ∧
    (Via.step { Via.creation with t1cL := 0x01#8, ier := 0xC0#8, ifr := 0x40#8 }).irqTrace = [] := by decide

/-- R303's example: the flag without the summary bit. -/
theorem test_timer2_disabled :
    (Via.step { Via.creation with t2cL := 0x01#8, ier := 0x80#8 }).ifr = 0x20#8 ∧
    (Via.step { Via.creation with t2cL := 0x01#8, ier := 0x80#8 }).irqTrace = [] := by decide

/-- V9: both timers in one pulse, both enabled: two events. -/
theorem test_both_timers :
    (Via.step { Via.creation with t1cL := 0x01#8, t2cL := 0x01#8, ier := 0xE0#8 }).ifr = 0xE0#8 ∧
    (Via.step { Via.creation with t1cL := 0x01#8, t2cL := 0x01#8, ier := 0xE0#8 }).irqTrace = [.irq, .irq] := by decide

/-- R305: `CLK` at creation counts both timers from 0 to 65535, in reset, with no flag. -/
theorem test_first_pulse :
    (after .clk State.reset).via.timer1 = 65535 ∧ (after .clk State.reset).via.timer2 = 65535 ∧
    (after .clk State.reset).via.ifr = 0x00#8 ∧ (after .clk State.reset).psg.tick = 0x00#8 := by decide

/-! ## Steps -/

/-- The state of a step, if it has one. -/
def stepped (s : State) : Option State :=
  match step s with
  | .next t => some t
  | _ => none

/-- A placed word is the very next instruction: a write, and the pulse that performs a bus action or a shape code. -/
theorem test_placed_words :
    (stepped (State.reset.withFetchWord 16 0x3E57)).map (fun t => t.psg.regs[7]) = some 0x3E#8 ∧
    (stepped (State.reset.withFetchWord 3 0b111)).map (fun t => t.psg.tick) = some 0x01#8 ∧
    (stepped (State.reset.withFetchWord 4 0x0)).map (fun t => t.psg.env.value) = some 15#4 := by decide

/-- An empty list of operations holds the state (R355). -/
theorem test_idle : stepped State.reset = some State.reset := by decide

/-! ## Witnesses: every statement's hypotheses can be met -/

/-- The first and last of the 66 words: 34 with no value byte and 32 with one. -/
theorem test_witness_OperationWordsReadRight :
    (0b00000000#8, Instr.viaRdIrb) ∈ bareWords ∧ (0b11000000#8, Instr.drain) ∈ bareWords ∧ bareWords.length = 34 ∧
      (0b00010000#8, Instr.viaWrOrb 0xA5#8) ∈ valueWords 0xA5#8 ∧
      (0b01011111#8, Instr.psgWr15 0xA5#8) ∈ valueWords 0xA5#8 ∧ (valueWords 0xA5#8).length = 32 := by decide
theorem test_witness_ShapeCodesReadRight :
    (Instr.envShapeF, (⟨true, true, true, true⟩ : ShapeBits)) ∈ shapeTable := by decide
theorem test_witness_PsgWriteTonePeriods :
    (Instr.psgWr4 0xFF#8, (2 : Fin 3)) ∈ fineWrites 0xFF#8 ∧ (Instr.psgWr5 0xFF#8, (2 : Fin 3)) ∈ coarseWrites 0xFF#8 := by decide
theorem test_witness_DecodedBytesAreTheEncoding :
    decode .opw [0x5F#8, 0x12#8, 0x80#8] = .ok (.psgWr15 0x12#8, [0x80#8]) := by decide
theorem test_witness_UnassignedWordsAreRefused_bit5 :
    ∃ (s : State) (w : Byte) (rest : List Byte), s.inbox = w :: rest ∧ w.getLsbD 5 = true := ⟨State.reset.setInbox [0x20#8], 0x20#8, [], by decide⟩
theorem test_witness_UnassignedWordsAreRefused_class :
    ∃ (s : State) (w : Byte) (rest : List Byte), s.inbox = w :: rest ∧ w.getLsbD 7 = true ∧ w.extractLsb' 0 5 ≠ 0#5 := ⟨State.reset.setInbox [0x90#8], 0x90#8, [], by decide⟩
theorem test_witness_UnassignedWordsAreRefused_assigned :
    ∃ (s : State) (w : Byte) (rest : List Byte), s.inbox = w :: rest ∧ w.getLsbD 5 = false ∧
      (w.getLsbD 7 = true → w.extractLsb' 0 5 = 0#5) ∧ rest ≠ [] := ⟨State.reset.setInbox [0xC0#8, 0x00#8], 0xC0#8, [0x00#8], by decide⟩
theorem test_witness_NothingToPerformHoldsState_empty :
    State.reset.inbox = [] := by decide
theorem test_witness_NothingToPerformHoldsState_half :
    ∃ (s : State) (w : Byte), s.inbox = [w] ∧ w.getLsbD 7 = false ∧ w.getLsbD 5 = false ∧ w.getLsbD 4 = true := ⟨State.reset.setInbox [0x5F#8], 0x5F#8, by decide⟩
theorem test_witness_StepPerformsTheNextOperation :
    decode .opw (State.reset.setInbox [0x80#8]).inbox = .ok (.clk, []) := by decide
theorem test_witness_PsgReadReturnsStored :
    (Instr.psgRd15, (15 : Fin 16)) ∈ psgReads ∧ (onBus 0x05#8 0#8 0x0F#8 0#8).psg.sel.toNat = (15 : Fin 16).val := by decide
theorem test_witness_PsgWritePlain :
    (Instr.psgWr15 0x55#8, (15 : Fin 16)) ∈ plainWrites 0x55#8 ∧ (onBus 0x06#8 0x55#8 0x0F#8 0#8).psg.sel.toNat = (15 : Fin 16).val ∧
      (onBus 0x06#8 0x55#8 0x0F#8 0#8).via.portA = 0x55#8 := by decide
theorem test_witness_WrittenRegistersReadBack :
    (0x80#8 : Byte).getLsbD 7 = true ∧ (withVia fun x => { x with ddrb := 0x80#8, ddra := 0x01#8 }).via.ddrb.getLsbD 7 = true ∧
      (withVia fun x => { x with ddrb := 0x80#8, ddra := 0x01#8 }).via.ddra.getLsbD 0 = true := by decide
theorem test_witness_PsgRegisterPersists_write :
    ∃ t, exec (.psgWr15 1#8) State.reset = .next t ∧ t.psg.regs[(15 : Fin 16)] ≠ State.reset.psg.regs[(15 : Fin 16)] := ⟨_, rfl, by decide⟩
theorem test_witness_PsgRegisterPersists_reset :
    ∃ t, exec .clk (withPsg fun p => p.store 0 1#8) = .next t ∧
      t.psg.regs[(0 : Fin 16)] ≠ (withPsg fun p => p.store 0 1#8).psg.regs[(0 : Fin 16)] := ⟨_, rfl, by decide⟩
theorem test_witness_PsgRegisterPersists_bus :
    ∃ t, exec .clk (onBus 0x06#8 0x55#8 0x0F#8 0#8) = .next t ∧
      t.psg.regs[(15 : Fin 16)] ≠ (onBus 0x06#8 0x55#8 0x0F#8 0#8).psg.regs[(15 : Fin 16)] := ⟨_, rfl, by decide⟩
theorem test_witness_InterruptRegistersChangeOnlyBy_flags :
    ∃ t, exec (.viaWrIfr 0xFF#8) State.reset = .next t ∧ t.via.ifr ≠ State.reset.via.ifr := ⟨_, rfl, by decide⟩
theorem test_witness_InterruptRegistersChangeOnlyBy_enables :
    ∃ t, exec (.viaWrIer 0xFF#8) State.reset = .next t ∧ t.via.ier ≠ State.reset.via.ier := ⟨_, rfl, by decide⟩
theorem test_witness_OnlyPulsesNotify :
    ∃ t, exec .drain State.reset = .next t ∧ Instr.drain ≠ .clk := ⟨_, rfl, by decide⟩
theorem test_witness_OnlyPulsesNotify_two_events :
    (after .clk (withVia fun x => { x with t1cL := 1#8, t2cL := 1#8, ier := 0xE0#8 })).via.irqTrace = [.irq, .irq] := by decide
theorem test_witness_PortsMoveOnlyBy_portB :
    ∃ t, exec (.viaWrOrb 0xFF#8) (withVia fun x => { x with ddrb := 0x80#8 }) = .next t ∧ t.via.portB ≠ 0x00#8 := ⟨_, rfl, by decide⟩
theorem test_witness_PortsMoveOnlyBy_portA :
    ∃ t, exec .clk (onBus 0x05#8 0x55#8 0x0F#8 0#8) = .next t ∧ t.via.portA ≠ 0x55#8 := ⟨_, rfl, by decide⟩
theorem test_witness_FaultMarkIsSticky :
    ∃ t, exec .busRead (onBus 0x05#8 0x55#8 0x10#8 0#8) = .next t ∧ t.fault = some .indexOutOfRange := ⟨_, rfl, by decide⟩
theorem test_witness_HiddenStateIsNotReadable :
    ∃ t u, (onBus 0x04#8 0#8 0x10#8 0#8).psg.regs = (onBus 0x04#8 0#8 0x0F#8 9#8).psg.regs ∧
      (onBus 0x04#8 0#8 0x10#8 0#8).via = (onBus 0x04#8 0#8 0x0F#8 9#8).via ∧
      exec .psgRd0 (onBus 0x04#8 0#8 0x10#8 0#8) = .next t ∧ exec .psgRd0 (onBus 0x04#8 0#8 0x0F#8 9#8) = .next u := ⟨_, _, rfl, rfl, rfl, rfl⟩
theorem test_witness_StepKeepsInvariant :
    ∃ s t : State, Inv s ∧ step s = .next t ∧ s ≠ t := ⟨State.reset.setInbox [0x50#8, 0x40#8], _, ⟨Psg.Inv.reset, Or.inl rfl⟩, rfl, by decide⟩
theorem test_witness_BusInactive :
    (onBus 0xFC#8 0#8 0xFF#8 0#8).via.portB.extractLsb' 0 3 = 0b100#3 := by decide
theorem test_witness_BusReadInRange :
    (onBus 0x05#8 0#8 0x00#8 0#8).psg.sel.toNat = (0 : Fin 16).val ∧ (onBus 0x05#8 0#8 0x0F#8 0#8).psg.sel.toNat = (15 : Fin 16).val := by decide
theorem test_witness_BusWriteInRange :
    (Instr.psgWr15 0x55#8, (15 : Fin 16)) ∈ psgWrites (onBus 0x06#8 0x55#8 0x0F#8 0#8).via.portA ∧
      (onBus 0x06#8 0x55#8 0x0F#8 0#8).psg.sel.toNat = (15 : Fin 16).val := by decide
theorem test_witness_BusIndexFault_read :
    15 < (onBus 0x05#8 0#8 0x10#8 0#8).psg.sel.toNat ∧ (onBus 0x05#8 0#8 0x10#8 0#8).via.portB.extractLsb' 0 3 = 0b101#3 := by decide
theorem test_witness_BusIndexFault_write :
    15 < (onBus 0x06#8 0#8 0xFF#8 0#8).psg.sel.toNat ∧ (onBus 0x06#8 0#8 0xFF#8 0#8).via.portB.extractLsb' 0 3 = 0b110#3 := by decide
theorem test_witness_DrainReturnsTheBuffer :
    ∃ a, a < Config.bufCap := ⟨0, Nat.succ_pos _⟩
theorem test_witness_PulseInReset :
    State.reset.via.portB.getLsbD 2 = false := by decide
theorem test_witness_PulseOrder_plain :
    (onBus 0x04#8 0#8 0#8 14#8).via.portB.getLsbD 2 = true ∧ ((onBus 0x04#8 0#8 0#8 14#8).psg.tick.toNat + 1) % 16 ≠ 0 := by decide
theorem test_witness_PulseOrder_sample :
    (onBus 0x04#8 0#8 0#8 15#8).via.portB.getLsbD 2 = true ∧ ((onBus 0x04#8 0#8 0#8 15#8).psg.tick.toNat + 1) % 16 = 0 ∧
      ((onBus 0x04#8 0#8 0#8 15#8).psg.tick.toNat + 1) % 256 ≠ 0 := by decide
theorem test_witness_PulseOrder_envelope :
    (onBus 0x07#8 0#8 0#8 255#8).via.portB.getLsbD 2 = true ∧ ((onBus 0x07#8 0#8 0#8 255#8).psg.tick.toNat + 1) % 256 = 0 := by decide
/-- A block out of reset that meets the invariant. -/
theorem onBus_inv (portB portA sel tick : Byte) : Inv (onBus portB portA sel tick) :=
  ⟨(Psg.Inv.reset.setSel sel).setTick tick, Or.inl rfl⟩

theorem test_witness_PulseKeepsPsg :
    Inv (onBus 0x06#8 1#8 0x0F#8 14#8) ∧ (onBus 0x06#8 1#8 0x0F#8 14#8).via.portB.getLsbD 2 = true ∧
      (onBus 0x06#8 1#8 0x0F#8 14#8).via.portB.extractLsb' 0 3 ≠ 0b111#3 ∧
      ((onBus 0x06#8 1#8 0x0F#8 14#8).psg.tick.toNat + 1) % 16 ≠ 0 ∧ 1 ≠ (onBus 0x06#8 1#8 0x0F#8 14#8).psg.cursor := ⟨onBus_inv _ _ _ _, by decide⟩
theorem test_witness_SynthesisStepMovesTheTones_counts :
    1 ≤ (State.reset.psg.tone[(2 : Fin 3)]).counter.toNat ∧ (State.reset.psg.tone[(2 : Fin 3)]).counter.toNat ≠ 1 := by decide
theorem test_witness_SynthesisStepMovesTheTones_reloads :
    ((after (.psgWr0 1#8) State.reset).psg.tone[(0 : Fin 3)]).counter.toNat = 1 := by decide
theorem test_witness_SynthesisStepDrawsNoise_counts :
    1 ≤ State.reset.psg.noise.counter.toNat ∧ State.reset.psg.noise.counter.toNat ≠ 1 := by decide
theorem test_witness_SynthesisStepDrawsNoise_reloads :
    (after (.psgWr6 0#8) State.reset).psg.noise.counter.toNat = 1 := by decide
theorem test_witness_SynthesisStepAppendsTheMix :
    Inv State.reset ∧ 1 ≠ State.reset.psg.cursor := ⟨⟨Psg.Inv.reset, Or.inl rfl⟩, by decide⟩
theorem test_witness_EnvelopeStepByCode_reloads :
    State.reset.psg.env.Inv ∧ State.reset.psg.env.remaining.toNat = 1 := ⟨Psg.Inv.reset.envelope, by decide⟩
theorem test_witness_EnvelopeStepByCode_counts :
    (⟨65536#17, 1, 0#4⟩ : Envelope).Inv ∧ (⟨65536#17, 1, 0#4⟩ : Envelope).remaining.toNat ≠ 1 := ⟨⟨by decide, by decide, by decide⟩, by decide⟩
theorem test_witness_EnvelopeSettles_decay :
    (Instr.envShape0, (⟨false, false, false, false⟩ : ShapeBits)) ∈ shapeTable ∧
      1 ≤ secondPeriod.psg.env.periodCounter ∧ secondPeriod.psg.env.remaining = 1#17 := by decide
theorem test_witness_EnvelopeSettles_hold :
    (Instr.envShapeB, (⟨true, false, true, true⟩ : ShapeBits)) ∈ shapeTable ∧
      2 ≤ (withPsg fun p => { p with env := ⟨7#17, 2, 0#4⟩ }).psg.env.periodCounter := by decide
theorem test_witness_TimerOneCountsToExpiry :
    65536 = (if State.reset.via.timer1 = 0 then 65536 else State.reset.via.timer1) ∧ 65535 < 65536 := by decide
theorem test_witness_TimerOneCountsToExpiry_next :
    1 = if (withVia fun x => { x with t1cL := 1#8 }).via.timer1 = 0 then 65536 else (withVia fun x => { x with t1cL := 1#8 }).via.timer1 := by decide
theorem test_witness_TimerTwoCountsToExpiry :
    65536 = (if State.reset.via.timer2 = 0 then 65536 else State.reset.via.timer2) ∧ 65535 < 65536 := by decide
theorem test_witness_HeldResetRepeats_one_shot :
    (onBus 0xFB#8 0#8 0#8 0#8).via.portB.getLsbD 2 = false ∧ (onBus 0xFB#8 0#8 0#8 0#8).via.acr.getLsbD 6 = false := by decide
/-- Continuous mode, in reset: with the counter at 2 the first pulse is before the expiry, the second at it. -/
theorem test_witness_HeldResetRepeats_continuous :
    (withVia fun x => { x with acr := 0x40#8, t1cL := 2#8 }).via.portB.getLsbD 2 = false ∧
      (withVia fun x => { x with acr := 0x40#8, t1cL := 2#8 }).via.acr.getLsbD 6 = true ∧
      0 + 1 < expiryIn (withVia fun x => { x with acr := 0x40#8, t1cL := 2#8 }).via.timer1 ∧
      ¬ 1 + 1 < expiryIn (withVia fun x => { x with acr := 0x40#8, t1cL := 2#8 }).via.timer1 := by decide
theorem test_witness_ToneHalfPeriod :
    (onBus 0x04#8 0#8 0#8 16#8).via.portB.extractLsb' 0 3 = 0b100#3 ∧ (onBus 0x04#8 0#8 0#8 16#8).psg.tick.toNat % 16 = 0 ∧
      ((onBus 0x04#8 0#8 0#8 16#8).psg.tone[(2 : Fin 3)]).counter.toNat =
        effNat ((onBus 0x04#8 0#8 0#8 16#8).psg.tone[(2 : Fin 3)]).period.toNat := by decide
theorem test_witness_SampleEverySixteenPulses_read :
    (onBus 0x05#8 0#8 0#8 255#8).via.portB.getLsbD 2 = true ∧
      (onBus 0x05#8 0#8 0#8 255#8).via.portB.extractLsb' 0 3 ≠ 0b110#3 ∧
      (onBus 0x05#8 0#8 0#8 255#8).via.portB.extractLsb' 0 3 ≠ 0b111#3 ∧
      (onBus 0x05#8 0#8 0#8 255#8).psg.cursor < Config.bufCap := ⟨by decide, by decide, by decide, Nat.succ_pos _⟩
theorem test_witness_SampleEverySixteenPulses_write :
    (onBus 0x06#8 1#8 0x0F#8 15#8).via.portB.getLsbD 2 = true ∧
      (onBus 0x06#8 1#8 0x0F#8 15#8).via.portB.extractLsb' 0 3 ≠ 0b111#3 ∧
      (onBus 0x06#8 1#8 0x0F#8 15#8).psg.cursor < Config.bufCap := ⟨by decide, by decide, Nat.succ_pos _⟩
theorem test_witness_SampleEverySixteenPulses_latch :
    (onBus 0x07#8 1#8 0x0F#8 0#8).via.portB.getLsbD 2 = true ∧
      (onBus 0x07#8 1#8 0x0F#8 0#8).via.portB.extractLsb' 0 3 ≠ 0b110#3 ∧
      (onBus 0x07#8 1#8 0x0F#8 0#8).psg.cursor < Config.bufCap := ⟨by decide, by decide, Nat.succ_pos _⟩
theorem test_witness_EnvelopePeriodCount :
    Psg.reset.env.remaining = 1#17 ∧ Psg.reset.env.periodCounter = 0 := by decide

end Sys2Proof.Machine
end

section
/-! Scope (spec/00_scope.md): a step performs the next operation whole (R9), and every operation completes (R11). -/

namespace Sys2Proof.Machine

/-! ## A step, by what it fetches -/

/-- R9: a fetched operation is performed on the state with its bytes taken off the list. -/
theorem step_of_fetch {s : State} {i : Instr} {rest : List Byte} (h : s.fetch = .ok (i, rest)) :
    step s = exec i (s.setInbox rest) := by
  unfold step; rw [h]

/-! ## The fault mark -/

theorem State.gatedSteps_fault (s : State) : s.gatedSteps.fault = s.fault := by
  obtain ⟨-, hfault, -⟩ := s.gatedSteps_frame
  exact hfault

/-- A pulse leaves the mark, or sets it because its bus action is a read or a write with `sel` above 15 (R136). -/
theorem State.pulse_fault (s : State) :
    s.pulse.fault = s.fault ∨
      s.pulse.fault = some .indexOutOfRange ∧ 15 < s.psg.sel.toNat ∧
        (decodeBus3 s.via.portB = .read ∨ decodeBus3 s.via.portB = .write) := by
  rw [State.pulse_eq]
  cases decodeBus3 s.via.portB with
  | reset => exact Or.inl rfl
  | inactive => exact Or.inl (State.gatedSteps_fault _)
  | read =>
    simpa [State.busCycle, State.gatedSteps_fault] using (s.setVia s.via.step).busRead_fault
  | write =>
    simpa [State.busCycle, State.gatedSteps_fault] using (s.setVia s.via.step).busWrite_fault
  | latch => exact Or.inl (State.gatedSteps_fault _)

/-- Only a bus read, a bus write and a pulse can reach the fault: every other instruction completes with the mark as it
was. -/
theorem exec_keeps_fault {i : Instr} (s : State) (hread : i ≠ .busRead) (hwrite : i ≠ .busWrite) (hclk : i ≠ .clk) :
    ∃ t, exec i s = .next t ∧ t.fault = s.fault := by
  cases i with
  | busRead => exact absurd rfl hread
  | busWrite => exact absurd rfl hwrite
  | clk => exact absurd rfl hclk
  | _ => exact ⟨_, rfl, rfl⟩

/-! ## The obligations -/

/-- Settles O10: `State.fetch` is the decode of the list of bytes, and `State.setInbox` leaves the rest. -/
theorem stepPerformsTheNextOperation : Obligations.StepPerformsTheNextOperation :=
  fun _ _ _ h => step_of_fetch h

/-- Settles O11, by the three instructions that reach the bus and all the others. -/
theorem everyOperationCompletes : Obligations.EveryOperationCompletes := by
  intro i s
  by_cases hread : i = .busRead
  · exact ⟨s.busRead, by rw [hread]; rfl, s.busRead_fault.imp_right And.left⟩
  by_cases hwrite : i = .busWrite
  · exact ⟨s.busWrite, by rw [hwrite]; rfl, s.busWrite_fault.imp_right And.left⟩
  by_cases hclk : i = .clk
  · exact ⟨s.pulse, by rw [hclk]; rfl, s.pulse_fault.imp_right And.left⟩
  obtain ⟨t, hexec, hfault⟩ := exec_keeps_fault s hread hwrite hclk
  exact ⟨t, hexec, Or.inl hfault⟩

end Sys2Proof.Machine
end

section
/-! State (spec/10_state.md): the creation state meets the invariant and every step keeps it; over all instructions, what can
change a PSG register, the interrupt registers and the fault mark. -/

namespace Sys2Proof.Machine

/-! ## What an instruction can do to the PSG -/

/-- A direct write performs the register write that a bus write performs with the same index (R71). -/
theorem exec_psgWrite {v : Byte} {q : Instr × Fin 16} (hq : q ∈ psgWrites v) (s : State) :
    exec q.1 s = .next (s.setPsg (s.psg.write q.2 v)) := by
  simp only [psgWrites, List.mem_cons, List.not_mem_nil, or_false] at hq
  rcases hq with h | h | h | h | h | h | h | h | h | h | h | h | h | h | h | h <;> subst h <;> rfl

/-- All that an instruction `i` can do to the PSG on the way from `s` to `t`. -/
inductive PsgEffect (s t : State) : Instr → Prop where
  | untouched {i : Instr} (hpsg : t.psg = s.psg) : PsgEffect s t i
  | write {i : Instr} {v : Byte} (r : Fin 16) (hmem : (i, r) ∈ psgWrites v) (hpsg : t.psg = s.psg.write r v) :
      PsgEffect s t i
  | envelope {i : Instr} (code : BitVec 4) (hpsg : t.psg = s.psg.envStep code) : PsgEffect s t i
  | busReset (hstate : t = s.busReset) : PsgEffect s t .busReset
  | busWrite (hstate : t = s.busWrite) : PsgEffect s t .busWrite
  | busLatch (hstate : t = s.busLatch) : PsgEffect s t .busLatch
  | pulse (hstate : t = s.pulse) : PsgEffect s t .clk

/-- The writes, the shape codes, three bus actions and the pulse reach the PSG; nothing else does. -/
theorem exec_psgEffect {i : Instr} {s t : State} (h : exec i s = .next t) : PsgEffect s t i := by
  have direct : ∀ v, (∃ r, (i, r) ∈ psgWrites v) → PsgEffect s t i := fun v ⟨r, hmem⟩ =>
    .write r hmem (by rw [exec_psgWrite hmem] at h; cases h; rfl)
  cases i with
  | busReset => cases h; exact .busReset rfl
  | busRead => cases h; exact .untouched s.busRead_psg
  | busWrite => cases h; exact .busWrite rfl
  | busLatch => cases h; exact .busLatch rfl
  | clk => cases h; exact .pulse rfl
  | psgWr0 v | psgWr1 v | psgWr2 v | psgWr3 v | psgWr4 v | psgWr5 v | psgWr6 v | psgWr7 v | psgWr8 v | psgWr9 v
  | psgWr10 v | psgWr11 v | psgWr12 v | psgWr13 v | psgWr14 v | psgWr15 v => exact direct v (by simp [psgWrites])
  | envShape0 | envShape1 | envShape2 | envShape3 | envShape4 | envShape5 | envShape6 | envShape7 | envShape8
  | envShape9 | envShapeA | envShapeB | envShapeC | envShapeD | envShapeE | envShapeF =>
    cases h; exact .envelope _ rfl
  | _ => cases h; exact .untouched rfl

/-! ## What an instruction can do to the interrupt registers -/

/-- Only a write to `IER` changes the enables, and it stores its command (R264, R280). -/
theorem exec_ier {i : Instr} {s t : State} (h : exec i s = .next t) :
    t.via.ier = s.via.ier ∨ ∃ v, i = .viaWrIer v ∧ t.via.ier = enableCommand v := by
  cases i with
  | viaWrIer v => cases h; exact .inr ⟨v, rfl, rfl⟩
  | busRead =>
    cases h
    obtain ⟨a, hvia⟩ := s.busRead_via
    exact .inl (by rw [hvia])
  | busWrite => cases h; exact .inl (by rw [State.busWrite_via])
  | clk =>
    cases h
    obtain ⟨a, hvia, -⟩ := s.pulse_via
    exact .inl (by rw [hvia]; exact s.via.step_ier)
  | _ => cases h; exact .inl rfl

/-- The flags stay, but for a pulse, the four clearing accesses and a write to `IFR` (R342, R343, R344). -/
theorem exec_ifr {i : Instr} {s t : State} (h : exec i s = .next t) :
    t.via.ifr = s.via.ifr ∨ i = .clk ∨ i = .viaRdT1cL ∨ i = .viaRdT2cL ∨ (∃ v, i = .viaWrT1cH v) ∨
      (∃ v, i = .viaWrT2cH v) ∨ ∃ v, i = .viaWrIfr v := by
  cases i with
  | clk | viaRdT1cL | viaRdT2cL | viaWrT1cH v | viaWrT2cH v | viaWrIfr v => simp
  | busRead =>
    cases h
    obtain ⟨a, hvia⟩ := s.busRead_via
    exact .inl (by rw [hvia])
  | busWrite => cases h; exact .inl (by rw [State.busWrite_via])
  | _ => cases h; exact .inl rfl

/-! ## The invariant -/

/-- The byte an enable command stores has bit 7 set, whether it is the command or its complement (D29). -/
theorem enableCommand_bit7 (v : Byte) : (enableCommand v).getLsbD 7 = true := by
  unfold enableCommand
  split
  · assumption
  · simp_all

theorem Inv.psg_of_exec {i : Instr} {s t : State} (hinv : Inv s) (h : exec i s = .next t) : t.psg.Inv := by
  cases exec_psgEffect h with
  | untouched hpsg => rw [hpsg]; exact hinv.psg
  | write r _ hpsg => rw [hpsg]; exact hinv.psg.write r _
  | envelope code hpsg => rw [hpsg]; exact hinv.psg.envStep code
  | busReset hstate => rw [hstate]; exact hinv.busReset.psg
  | busWrite hstate => rw [hstate]; exact hinv.busWrite.psg
  | busLatch hstate => rw [hstate]; exact hinv.busLatch.psg
  | pulse hstate => rw [hstate]; exact hinv.pulse.psg

/-- Every instruction keeps the invariant, and so does every operation (R36, R59). -/
theorem Inv.of_exec {i : Instr} {s t : State} (hinv : Inv s) (h : exec i s = .next t) : Inv t := by
  refine ⟨hinv.psg_of_exec h, ?_⟩
  obtain hier | ⟨v, -, hier⟩ := exec_ier h
  · rw [hier]; exact hinv.enables
  · rw [hier]; exact .inr (enableCommand_bit7 v)

theorem Inv.setInbox {s : State} (hinv : Inv s) (bytes : List Byte) : Inv (s.setInbox bytes) := hinv.of_psg hinv.psg rfl

/-- With no operation to perform, a step that answers a state answers the state it started from. -/
theorem noOperation_next {s t : State} {e : DecodeError} (h : noOperation s e = .next t) : t = s := by
  cases e <;> cases h; rfl

/-- A step performs the operation it fetches, or there is none and it holds the state (R9, R355). -/
theorem step_cases {s t : State} (h : step s = .next t) :
    (∃ i rest, s.fetch = .ok (i, rest) ∧ exec i (s.setInbox rest) = .next t) ∨ t = s := by
  cases hfetch : s.fetch with
  | ok p => exact .inl ⟨p.1, p.2, rfl, by rwa [step_of_fetch hfetch] at h⟩
  | error e =>
    unfold step at h
    rw [hfetch] at h
    exact .inr (noOperation_next h)

/-! ## Where a change of a PSG register comes from -/

/-- A register write changes no register but its own (R71). -/
theorem Psg.write_changes {p : Psg} {i r : Fin 16} {v : Byte} (hne : (p.write i v).regs[r] ≠ p.regs[r]) : i = r := by
  by_contra hir
  exact hne ((p.reg_write i r v).trans (if_neg hir))

/-- A bus write changes no register but the one `sel` names (R134). -/
theorem State.busWrite_changes {s : State} {r : Fin 16} (hne : s.busWrite.psg.regs[r] ≠ s.psg.regs[r]) :
    s.psg.sel.toNat = r.val := by
  obtain ⟨hpsg, -⟩ | ⟨i, hsel, hpsg⟩ := s.busWrite_psg
  · exact absurd (by rw [hpsg]) hne
  · rw [hpsg] at hne
    rw [← Psg.write_changes hne]
    exact Psg.selected_eq_some.mp hsel

/-- A pulse that writes the bus leaves the registers as the bus write alone does (R134, R322). -/
theorem State.pulse_regs_of_write {s : State} (hbus : decodeBus3 s.via.portB = .write) :
    s.pulse.psg.regs = (s.setVia s.via.step).busWrite.psg.regs := by
  obtain ⟨-, -, -, -, hregs, -⟩ := (s.setVia s.via.step).busWrite.tickUp.gatedSteps_frame
  rw [State.pulse_eq, hbus]
  exact hregs

/-- A pulse changes a register only in reset, or by a bus write with `sel` on it (R131, R134, R322). -/
theorem State.pulse_changes {s : State} {r : Fin 16} (hne : s.pulse.psg.regs[r] ≠ s.psg.regs[r]) :
    s.via.portB.getLsbD 2 = false ∨ decodeBus3 s.via.portB = .write ∧ s.psg.sel.toNat = r.val := by
  by_cases hreset : s.via.portB.getLsbD 2 = false
  · exact .inl hreset
  obtain ⟨-, -, hregs, -⟩ := State.pulse_outside_reset (Bool.eq_true_of_not_eq_false hreset)
  have hbus : decodeBus3 s.via.portB = .write := by
    by_contra hbus
    exact hne (by rw [hregs hbus])
  rw [State.pulse_regs_of_write hbus] at hne
  exact .inr ⟨hbus, State.busWrite_changes (s := s.setVia s.via.step) hne⟩

/-! ## The obligations -/

/-- Settles O34: the invariant is kept by every instruction, and a step is one instruction or none. -/
theorem stepKeepsInvariant : Obligations.StepKeepsInvariant := by
  intro s t hinv h
  obtain ⟨i, rest, -, hexec⟩ | rfl := step_cases h
  · exact (hinv.setInbox rest).of_exec hexec
  · exact hinv

/-- Settles O18, by what an instruction can do to the PSG. -/
theorem psgRegisterPersists : Obligations.PsgRegisterPersists := by
  intro i s t r h hne
  cases exec_psgEffect h with
  | untouched hpsg => exact absurd (by rw [hpsg]) hne
  | write r' hmem hpsg =>
    rw [hpsg] at hne
    exact .inl ⟨_, Psg.write_changes hne ▸ hmem⟩
  | envelope code hpsg => exact absurd (by rw [hpsg, Psg.envStep_regs]) hne
  | busReset => exact .inr (.inl rfl)
  | busWrite hstate => exact .inr (.inr (.inl ⟨rfl, State.busWrite_changes (hstate ▸ hne)⟩))
  | busLatch hstate => exact absurd (by rw [hstate]; rfl) hne
  | pulse hstate =>
    obtain ⟨-, -, hwrite, -⟩ := decodeBus3_low3 s.via.portB
    exact .inr (.inr (.inr ⟨rfl, by rw [hwrite]; exact State.pulse_changes (hstate ▸ hne)⟩))

/-- Settles O29, by what can change the flags and what can change the enables. -/
theorem interruptRegistersChangeOnlyBy : Obligations.InterruptRegistersChangeOnlyBy :=
  fun _ _ _ h => ⟨(exec_ifr h).resolve_left, fun hne => ((exec_ier h).resolve_left hne).imp fun _ hv => hv.1⟩

/-- Settles O32, by the three instructions that reach the bus and all the others. -/
theorem faultMarkIsSticky : Obligations.FaultMarkIsSticky := by
  intro i s t h
  by_cases hread : i = .busRead
  · subst hread; cases h
    exact s.busRead_fault.imp_right fun ⟨hmark, hsel⟩ => ⟨hmark, hsel, .inl rfl⟩
  by_cases hwrite : i = .busWrite
  · subst hwrite; cases h
    exact s.busWrite_fault.imp_right fun ⟨hmark, hsel⟩ => ⟨hmark, hsel, .inr (.inl rfl)⟩
  by_cases hclk : i = .clk
  · subst hclk; cases h
    obtain ⟨-, hread, hwrite, -⟩ := decodeBus3_low3 s.via.portB
    rw [hread, hwrite]
    exact s.pulse_fault.imp_right fun ⟨hmark, hsel, hbus⟩ => ⟨hmark, hsel, .inr (.inr ⟨rfl, hbus⟩)⟩
  obtain ⟨t', hexec, hfault⟩ := exec_keeps_fault s hread hwrite hclk
  rw [h] at hexec; cases hexec
  exact .inl hfault

/-- At creation every tone channel is as a full reset leaves it (R61). -/
theorem Psg.reset_tone (c : Fin 3) : Psg.reset.tone[c] = ToneChannel.reset := by simp [Psg.reset]

/-- At creation every register holds its reset value (R61, D16). -/
theorem Psg.reset_regs (i : Fin 16) : Psg.reset.regs[i] = Config.psgRegReset := by simp [Psg.reset]

/-- Settles O1: the registers, the tone channels and the buffer cells for every index, each other item at its value. -/
theorem creationState : Obligations.CreationState := by
  refine ⟨Psg.reset_regs, rfl, fun c => ?_, rfl, rfl, rfl, rfl, rfl, rfl, Memory.read_nil, rfl, rfl, rfl, rfl⟩
  have htone : State.reset.psg.tone[c] = ToneChannel.reset := Psg.reset_tone c
  rw [htone]
  exact ⟨rfl, rfl, rfl⟩

/-- Settles O2: a full reset meets the PSG's part, and the enables are as created. -/
theorem creationMeetsInvariant : Obligations.CreationMeetsInvariant := ⟨Psg.Inv.reset, .inl rfl⟩

end Sys2Proof.Machine
end

section
/-! Encoding (spec/30_encoding.md): the operation words by class (R112), and from them the agreement of encoder and decoder both
ways, the refusal of every other word, and the two fields a pulse decodes (R102, R107). -/

namespace Sys2Proof.Machine

/-! ## What the decoder answers, by the class of the word -/

/-- Class, bit 5 and `rw` are the high nibble of a word. -/
theorem getLsbD_append_high (hi idx : BitVec 4) :
    (hi ++ idx : Byte).getLsbD 7 = hi.getLsbD 3 ∧ (hi ++ idx : Byte).getLsbD 6 = hi.getLsbD 2 ∧
      (hi ++ idx : Byte).getLsbD 5 = hi.getLsbD 1 ∧ (hi ++ idx : Byte).getLsbD 4 = hi.getLsbD 0 :=
  ⟨BitVec.getLsbD_append, BitVec.getLsbD_append, BitVec.getLsbD_append, BitVec.getLsbD_append⟩

/-- The index is the low nibble of a word. -/
theorem extractLsb'_append_low (hi idx : BitVec 4) : (hi ++ idx : Byte).extractLsb' 0 4 = idx :=
  BitVec.extractLsb'_append_eq_right

theorem decode_viaRead (idx : BitVec 4) (rest : List Byte) :
    decode .opw ((0x0#4 ++ idx) :: rest) = .ok (viaReadOf idx, rest) := by
  simp only [decode, decodeOpw, getLsbD_append_high, extractLsb'_append_low]; rfl

theorem decode_viaWrite (idx : BitVec 4) (rest : List Byte) :
    decode .opw ((0x1#4 ++ idx) :: rest) = takeOperand (0x1#4 ++ idx) rest (viaWriteOf idx) := by
  simp only [decode, decodeOpw, getLsbD_append_high, extractLsb'_append_low]; rfl

theorem decode_psgRead (idx : BitVec 4) (rest : List Byte) :
    decode .opw ((0x4#4 ++ idx) :: rest) = .ok (psgReadOf idx, rest) := by
  simp only [decode, decodeOpw, getLsbD_append_high, extractLsb'_append_low]; rfl

theorem decode_psgWrite (idx : BitVec 4) (rest : List Byte) :
    decode .opw ((0x5#4 ++ idx) :: rest) = takeOperand (0x5#4 ++ idx) rest (psgWriteOf idx) := by
  simp only [decode, decodeOpw, getLsbD_append_high, extractLsb'_append_low]; rfl

/-- The words R112 gives no meaning: bit 5 set, or class 2 or 3 with a nonzero low field (D30). -/
def Unassigned (w : Byte) : Prop := w.getLsbD 5 = true ∨ w.getLsbD 7 = true ∧ w.extractLsb' 0 5 ≠ 0#5

/-- The low field of class 2 and 3 is `rw` above the index. -/
theorem low_field_eq_zero : ∀ w : Byte, w.getLsbD 4 = false → w.extractLsb' 0 4 = 0#4 → w.extractLsb' 0 5 = 0#5 := by decide

theorem decode_unassigned {w : Byte} (h : Unassigned w) (rest : List Byte) :
    decode .opw (w :: rest) = .error (.notAnOperation w) := by
  simp only [decode, decodeOpw]
  cases h5 : w.getLsbD 5 with
  | true => rfl
  | false =>
    obtain ⟨h7, hlow⟩ := h.resolve_left (by rw [h5]; exact Bool.false_ne_true)
    rw [h7]
    cases h4 : w.getLsbD 4 with
    | true => cases w.getLsbD 6 <;> rfl
    | false =>
      have hidx : w.extractLsb' 0 4 ≠ 0#4 := fun hidx => hlow (low_field_eq_zero w h4 hidx)
      cases w.getLsbD 6 <;> simp [hidx]

/-! ## The bytes of an operation -/

/-- R112: the bytes an operation is written as, class by class: the high nibble of the word is class, bit 5 and `rw`, the low
one the index. -/
inductive OperationBytes : Instr → List Byte → Prop where
  | viaRead (idx : BitVec 4) : OperationBytes (viaReadOf idx) [0x0#4 ++ idx]
  | viaWrite (idx : BitVec 4) (v : Byte) : OperationBytes (viaWriteOf idx v) [0x1#4 ++ idx, v]
  | psgRead (idx : BitVec 4) : OperationBytes (psgReadOf idx) [0x4#4 ++ idx]
  | psgWrite (idx : BitVec 4) (v : Byte) : OperationBytes (psgWriteOf idx v) [0x5#4 ++ idx, v]
  | clk : OperationBytes .clk [0x80#8]
  | drain : OperationBytes .drain [0xC0#8]

theorem OperationBytes.encode_eq {i : Instr} {bytes : List Byte} (h : OperationBytes i bytes) : encode i = bytes := by
  cases h with
  | viaRead idx => exact encode_viaReadOf idx
  | viaWrite idx v => exact encode_viaWriteOf idx v
  | psgRead idx => exact encode_psgReadOf idx
  | psgWrite idx v => exact encode_psgWriteOf idx v
  | clk | drain => rfl

theorem OperationBytes.decode_append {i : Instr} {bytes : List Byte} (h : OperationBytes i bytes) (rest : List Byte) :
    decode .opw (bytes ++ rest) = .ok (i, rest) := by
  cases h with
  | viaRead idx => exact decode_viaRead idx rest
  | viaWrite idx v => exact decode_viaWrite idx (v :: rest)
  | psgRead idx => exact decode_psgRead idx rest
  | psgWrite idx v => exact decode_psgWrite idx (v :: rest)
  | clk | drain => rfl

theorem OperationBytes.wellFormed {i : Instr} {bytes : List Byte} (h : OperationBytes i bytes) : i.wellFormed = true := by
  cases h with
  | viaRead idx => exact (wellFormed_readOf idx).1
  | viaWrite idx v => exact (wellFormed_writeOf idx v).1
  | psgRead idx => exact (wellFormed_readOf idx).2
  | psgWrite idx v => exact (wellFormed_writeOf idx v).2
  | clk | drain => rfl

/-- The class of each of the 256 words. -/
theorem word_class (w : Byte) :
    (∃ idx : BitVec 4, w = 0x0#4 ++ idx) ∨ (∃ idx : BitVec 4, w = 0x1#4 ++ idx) ∨ (∃ idx : BitVec 4, w = 0x4#4 ++ idx) ∨
      (∃ idx : BitVec 4, w = 0x5#4 ++ idx) ∨ w = 0x80#8 ∨ w = 0xC0#8 ∨ Unassigned w := by
  have hall : ∀ w : Byte, w = 0x0#4 ++ w.extractLsb' 0 4 ∨ w = 0x1#4 ++ w.extractLsb' 0 4 ∨ w = 0x4#4 ++ w.extractLsb' 0 4 ∨
      w = 0x5#4 ++ w.extractLsb' 0 4 ∨ w = 0x80#8 ∨ w = 0xC0#8 ∨ w.getLsbD 5 = true ∨
      w.getLsbD 7 = true ∧ w.extractLsb' 0 5 ≠ 0#5 := by decide
  exact (hall w).imp (⟨_, ·⟩) (.imp (⟨_, ·⟩) (.imp (⟨_, ·⟩) (.imp (⟨_, ·⟩) id)))

/-- Bytes begin with an operation, or are half of one (log 8), or their first word has no meaning. -/
theorem operationBytes_or_error (w : Byte) (tail : List Byte) :
    (∃ i bytes rest, OperationBytes i bytes ∧ w :: tail = bytes ++ rest) ∨
      (tail = [] ∧ decode .opw (w :: tail) = .error (.missingOperand w)) ∨ Unassigned w := by
  rcases word_class w with ⟨idx, rfl⟩ | ⟨idx, rfl⟩ | ⟨idx, rfl⟩ | ⟨idx, rfl⟩ | rfl | rfl | hun
  · exact .inl ⟨_, _, tail, .viaRead idx, rfl⟩
  · cases tail with
    | nil => exact .inr (.inl ⟨rfl, decode_viaWrite idx []⟩)
    | cons v rest => exact .inl ⟨_, _, rest, .viaWrite idx v, rfl⟩
  · exact .inl ⟨_, _, tail, .psgRead idx, rfl⟩
  · cases tail with
    | nil => exact .inr (.inl ⟨rfl, decode_psgWrite idx []⟩)
    | cons v rest => exact .inl ⟨_, _, rest, .psgWrite idx v, rfl⟩
  · exact .inl ⟨_, _, tail, .clk, rfl⟩
  · exact .inl ⟨_, _, tail, .drain, rfl⟩
  · exact .inr (.inr hun)

/-! ## The table of words, written out bit by bit -/

/-- The sixteen words of a class with the operations they stand for, in index order. -/
def classWords (hi : BitVec 4) (op : BitVec 4 → Instr) : List (Byte × Instr) :=
  (List.range 16).map fun n => (hi ++ BitVec.ofNat 4 n, op (BitVec.ofNat 4 n))

theorem exists_index_of_mem {hi : BitVec 4} {op : BitVec 4 → Instr} {q : Byte × Instr} (h : q ∈ classWords hi op) :
    ∃ idx, (hi ++ idx, op idx) = q := by
  obtain ⟨n, -, hq⟩ := List.mem_map.mp h
  exact ⟨_, hq⟩

/-- Each bare word of the table is the word of its class at its index. -/
theorem bareWords_operationBytes {q : Byte × Instr} (h : q ∈ bareWords) : OperationBytes q.2 [q.1] := by
  have hvia : viaReadWords = classWords 0x0#4 viaReadOf := rfl
  have hpsg : psgReadWords = classWords 0x4#4 psgReadOf := rfl
  rw [bareWords, hvia, hpsg] at h
  simp only [List.mem_append, List.mem_cons, List.not_mem_nil, or_false] at h
  rcases h with (h | h) | rfl | rfl
  · obtain ⟨idx, rfl⟩ := exists_index_of_mem h; exact .viaRead idx
  · obtain ⟨idx, rfl⟩ := exists_index_of_mem h; exact .psgRead idx
  · exact .clk
  · exact .drain

/-- Each write word of the table is the word of its class at its index. -/
theorem valueWords_operationBytes {v : Byte} {q : Byte × Instr} (h : q ∈ valueWords v) : OperationBytes q.2 [q.1, v] := by
  have hvia : viaWriteWords v = classWords 0x1#4 (viaWriteOf · v) := rfl
  have hpsg : psgWriteWords v = classWords 0x5#4 (psgWriteOf · v) := rfl
  rw [valueWords, hvia, hpsg] at h
  rcases List.mem_append.mp h with h | h
  · obtain ⟨idx, rfl⟩ := exists_index_of_mem h; exact .viaWrite idx v
  · obtain ⟨idx, rfl⟩ := exists_index_of_mem h; exact .psgWrite idx v

/-- Every operation of an agent stands in the table, beside the word the encoder gives it. -/
theorem exists_operationBytes {i : Instr} (h : i.format = .opw) : ∃ bytes, OperationBytes i bytes := by
  have bare : (encodeWord i, i) ∈ bareWords → ∃ bytes, OperationBytes i bytes :=
    fun hmem => ⟨_, bareWords_operationBytes hmem⟩
  have value : ∀ v, (encodeWord i, i) ∈ valueWords v → ∃ bytes, OperationBytes i bytes :=
    fun v hmem => ⟨_, valueWords_operationBytes hmem⟩
  cases i with
  | viaRdIrb | viaRdIra | viaRdDdrb | viaRdDdra | viaRdT1cL | viaRdT1cH | viaRdT1lL | viaRdT1lH | viaRdT2cL | viaRdT2cH
  | viaRdSr | viaRdAcr | viaRdPcr | viaRdIfr | viaRdIer | viaRdOraNh
  | psgRd0 | psgRd1 | psgRd2 | psgRd3 | psgRd4 | psgRd5 | psgRd6 | psgRd7 | psgRd8 | psgRd9 | psgRd10 | psgRd11 | psgRd12
  | psgRd13 | psgRd14 | psgRd15 | clk | drain => exact bare (by decide)
  | viaWrOrb v | viaWrOra v | viaWrDdrb v | viaWrDdra v | viaWrT1cL v | viaWrT1cH v | viaWrT1lL v | viaWrT1lH v
  | viaWrT2cL v | viaWrT2cH v | viaWrSr v | viaWrAcr v | viaWrPcr v | viaWrIfr v | viaWrIer v | viaWrOraNh v
  | psgWr0 v | psgWr1 v | psgWr2 v | psgWr3 v | psgWr4 v | psgWr5 v | psgWr6 v | psgWr7 v | psgWr8 v | psgWr9 v
  | psgWr10 v | psgWr11 v | psgWr12 v | psgWr13 v | psgWr14 v | psgWr15 v =>
    exact value v (by simp [valueWords, viaWriteWords, psgWriteWords, encodeWord])
  | _ => cases h

/-! ## The fields a pulse decodes -/

/-- The shape code is the low nibble, whatever stands above it (R26, R107). -/
theorem decode_fields (hi code : BitVec 4) (rest : List Byte) :
    decode .fields ((hi ++ code) :: rest) = .ok (shapeOf code, rest) := by
  simp only [decode, shapeCode, extractLsb'_append_low]

theorem encode_shapeOf : ∀ code : BitVec 4, encode (shapeOf code) = [0x0#4 ++ code] := by decide

theorem exists_shapeOf {i : Instr} (h : i.format = .fields) : ∃ code, i = shapeOf code := by
  cases i with
  | envShape0 | envShape1 | envShape2 | envShape3 | envShape4 | envShape5 | envShape6 | envShape7 | envShape8 | envShape9
  | envShapeA | envShapeB | envShapeC | envShapeD | envShapeE | envShapeF => decide
  | _ => cases h

theorem decode_encode_bus3 {i : Instr} (h : i.format = .bus3) (rest : List Byte) :
    decode .bus3 (encode i ++ rest) = .ok (i, rest) := by
  cases i with
  | busReset | busInactive | busRead | busWrite | busLatch => rfl
  | _ => cases h

/-! ## The obligations -/

/-- Settles O6, format by format: an operation is encoded as its class and index, a shape row as its code, a bus action as its
field. -/
theorem decodeEncodeAgree : Obligations.DecodeEncodeAgree := by
  intro i rest
  cases h : i.format with
  | bus3 => exact decode_encode_bus3 h rest
  | opw =>
    obtain ⟨bytes, hbytes⟩ := exists_operationBytes h
    rw [hbytes.encode_eq]
    exact hbytes.decode_append rest
  | fields =>
    obtain ⟨code, rfl⟩ := exists_shapeOf h
    rw [encode_shapeOf]
    exact decode_fields 0x0#4 code rest

/-- Settles O7: bytes that decode begin with the bytes of an operation, and those decode to that operation only. -/
theorem decodedBytesAreTheEncoding : Obligations.DecodedBytesAreTheEncoding := by
  intro bytes rest i h
  cases bytes with
  | nil => cases h
  | cons w tail =>
    obtain ⟨i', bytes', rest', hop, hsplit⟩ | ⟨-, herror⟩ | hun := operationBytes_or_error w tail
    · rw [hsplit, hop.decode_append] at h
      cases h
      exact ⟨by rw [hsplit, hop.encode_eq], hop.wellFormed⟩
    · rw [herror] at h; cases h
    · rw [decode_unassigned hun] at h; cases h

/-- Settles O8: a word of no meaning fails the fetch, and any other with a byte after it is fetched and completes. -/
theorem unassignedWordsAreRefused : Obligations.UnassignedWordsAreRefused := by
  intro s w tail hinbox
  have hfetch : s.fetch = decode .opw (w :: tail) := by rw [State.fetch, hinbox]
  refine ⟨fun hun => ?_, fun h5 hlow hne => ?_⟩
  · rw [step, hfetch, decode_unassigned hun]; rfl
  · obtain ⟨i, bytes, rest, hop, hsplit⟩ | ⟨hnil, -⟩ | hun := operationBytes_or_error w tail
    · rw [hsplit, hop.decode_append] at hfetch
      obtain ⟨t, hexec, -⟩ := everyOperationCompletes i (s.setInbox rest)
      exact ⟨t, (step_of_fetch hfetch).trans hexec⟩
    · exact absurd hnil hne
    · obtain hbit | ⟨h7, hfield⟩ := hun
      · rw [h5] at hbit; cases hbit
      · exact absurd (hlow h7) hfield

/-- Settles O3: each of the 66 words is the word of its class at its index. -/
theorem operationWordsReadRight : Obligations.OperationWordsReadRight :=
  ⟨fun rest _ h => (bareWords_operationBytes h).decode_append rest,
    fun _ rest _ h => (valueWords_operationBytes h).decode_append rest⟩

/-- Settles O4: the field is the code, and the code's row is the table's. -/
theorem shapeCodesReadRight : Obligations.ShapeCodesReadRight := by
  have hrow : ∀ q ∈ shapeTable, shapeOf q.2.code = q.1 := by decide
  intro q hq hi rest
  rw [decode_fields, hrow q hq]

/-- Settles O5, by the value of each of the eight fields under each of the 32 values of bits 7:3. -/
theorem busDecodeIsTheTable : Obligations.BusDecodeIsTheTable := by
  unfold Obligations.BusDecodeIsTheTable
  decide

end Sys2Proof.Machine
end

section
/-! The bus decoder (spec/40_bus_decoder.md): the five actions in and out of range of `sel`, what can move a port line, and runs
of pulses: the timers under any bus action, the whole block while reset is held. -/

namespace Sys2Proof.Machine

/-! ## A bus access, by what `sel` holds -/

theorem State.busRead_of_selected {s : State} {r : Fin 16} (h : s.psg.selected = some r) :
    s.busRead = s.setVia { s.via with portA := s.psg.reg r } := by
  unfold State.busRead; rw [h]

theorem State.busWrite_of_selected {s : State} {r : Fin 16} (h : s.psg.selected = some r) :
    s.busWrite = s.setPsg (s.psg.write r s.via.portA) := by
  unfold State.busWrite; rw [h]

theorem State.busRead_of_not_selected {s : State} (h : s.psg.selected = none) :
    s.busRead = s.raiseFault .indexOutOfRange := by
  unfold State.busRead; rw [h]

theorem State.busWrite_of_not_selected {s : State} (h : s.psg.selected = none) :
    s.busWrite = s.raiseFault .indexOutOfRange := by
  unfold State.busWrite; rw [h]

/-- A pulse that reads or writes the bus with `sel` above 15 sets the mark in the place of the access and runs on (R136). -/
theorem State.pulse_of_not_selected {s : State} (hsel : s.psg.selected = none)
    (hbus : decodeBus3 s.via.portB = .read ∨ decodeBus3 s.via.portB = .write) :
    s.pulse = ((s.setVia s.via.step).raiseFault .indexOutOfRange).tickUp.gatedSteps := by
  have hsel' : (s.setVia s.via.step).psg.selected = none := hsel
  rw [State.pulse_eq]
  obtain hread | hwrite := hbus
  · rw [hread, State.busCycle, State.busRead_of_not_selected hsel']
  · rw [hwrite, State.busCycle, State.busWrite_of_not_selected hsel']

/-! ## What an instruction can do to the ports -/

/-- Port B stays, but for a write to `ORB` (R250, D22). -/
theorem exec_portB {i : Instr} {s t : State} (h : exec i s = .next t) :
    t.via.portB = s.via.portB ∨ ∃ v, i = .viaWrOrb v := by
  cases i with
  | viaWrOrb v => exact .inr ⟨v, rfl⟩
  | busRead =>
    cases h
    obtain ⟨a, hvia⟩ := s.busRead_via
    exact .inl (by rw [hvia])
  | busWrite => cases h; exact .inl (by rw [State.busWrite_via])
  | clk =>
    cases h
    obtain ⟨-, -, -, -, hportB⟩ := s.pulse_timers
    exact .inl hportB
  | _ => cases h; exact .inl rfl

/-- Port A stays, but for a write to `ORA` and a bus read, alone or in a pulse (R133, R251, D22). -/
theorem exec_portA {i : Instr} {s t : State} (h : exec i s = .next t) :
    t.via.portA = s.via.portA ∨ (∃ v, i = .viaWrOra v) ∨ i = .busRead ∨ i = .clk ∧ decodeBus3 s.via.portB = .read := by
  cases i with
  | viaWrOra v => exact .inr (.inl ⟨v, rfl⟩)
  | busRead => exact .inr (.inr (.inl rfl))
  | busWrite => cases h; exact .inl (by rw [State.busWrite_via])
  | clk =>
    cases h
    obtain ⟨a, hvia, hkept⟩ := s.pulse_via
    by_cases hbus : decodeBus3 s.via.portB = .read
    · exact .inr (.inr (.inr ⟨rfl, hbus⟩))
    · exact .inl (by rw [hvia]; exact hkept hbus)
  | _ => cases h; exact .inl rfl

/-! ## Runs of pulses: the timers, whatever the bus does (R300 to R304) -/

/-- `n` pulses leave the timer mode, timer 1's latch and port B. -/
theorem State.iterate_pulse_keeps (n : Nat) (s : State) :
    (State.pulse^[n] s).via.acr = s.via.acr ∧ (State.pulse^[n] s).via.latch1 = s.via.latch1 ∧
      (State.pulse^[n] s).via.portB = s.via.portB := by
  induction n with
  | zero => exact ⟨rfl, rfl, rfl⟩
  | succ n ih =>
    obtain ⟨hacr, hlatch, hportB⟩ := ih
    obtain ⟨-, -, hacr', hlatch', hportB'⟩ := (State.pulse^[n] s).pulse_timers
    rw [Function.iterate_succ_apply']
    exact ⟨hacr'.trans hacr, hlatch'.trans hlatch, hportB'.trans hportB⟩

/-- Timer 2 has counted down by `n` modulo 65536 (R301, R303). -/
theorem State.iterate_pulse_timer2 (n : Nat) (s : State) : ((State.pulse^[n] s).via.timer2 + n) % 65536 = s.via.timer2 := by
  induction n with
  | zero => simpa using Nat.mod_eq_of_lt s.via.timer2_lt
  | succ n ih =>
    obtain ⟨-, hcount, -⟩ := (State.pulse^[n] s).pulse_timers
    rw [Function.iterate_succ_apply', hcount]
    omega

/-- In one-shot mode timer 1 has counted down by `n` modulo 65536 (R301, R302). -/
theorem State.iterate_pulse_timer1_oneShot (n : Nat) {s : State} (hmode : s.via.acr.getLsbD 6 = false) :
    ((State.pulse^[n] s).via.timer1 + n) % 65536 = s.via.timer1 := by
  induction n with
  | zero => simpa using Nat.mod_eq_of_lt s.via.timer1_lt
  | succ n ih =>
    obtain ⟨hacr, -, -⟩ := s.iterate_pulse_keeps n
    obtain ⟨hcount, -⟩ := (State.pulse^[n] s).pulse_timers
    rw [Function.iterate_succ_apply', hcount, hacr, hmode, Bool.and_false, if_neg Bool.false_ne_true]
    omega

theorem expiryIn_pos (count : Nat) : 0 < expiryIn count := by
  unfold expiryIn; split <;> omega

theorem expiryIn_le {count : Nat} (h : count < 65536) : expiryIn count ≤ 65536 := by
  unfold expiryIn; split <;> omega

/-- A timer's count is its distance from the expiry, modulo 65536 (R304). -/
theorem expiryIn_mod {count : Nat} (h : count < 65536) : expiryIn count % 65536 = count := by
  unfold expiryIn; split <;> omega

/-- In continuous mode a pulse brings timer 1 one nearer its expiry, and at the expiry back to its latch (R302). -/
theorem State.pulse_expiryIn_timer1 {s : State} (hmode : s.via.acr.getLsbD 6 = true) :
    expiryIn s.pulse.via.timer1 =
      if expiryIn s.via.timer1 = 1 then expiryIn s.via.latch1 else expiryIn s.via.timer1 - 1 := by
  have hlt := s.via.timer1_lt
  obtain ⟨hcount, -⟩ := s.pulse_timers
  rw [hcount, hmode, Bool.and_true, Via.expires1]
  by_cases hone : s.via.timer1 = 1
  · simp [hone, expiryIn]
  · simp only [hone, decide_false, Bool.false_eq_true, if_false]
    unfold expiryIn
    split_ifs <;> omega

/-- The distance to the end of a period of `p`, one step on: one less, and at the end the whole period again. -/
theorem sub_succ_mod {p : Nat} (k : Nat) (hp : 0 < p) : p - (k + 1) % p = if p - k % p = 1 then p else p - k % p - 1 := by
  have hlt := Nat.mod_lt k hp
  rw [← Nat.mod_add_mod]
  split
  · have hend : k % p + 1 = p := by omega
    rw [hend, Nat.mod_self, Nat.sub_zero]
  · rw [Nat.mod_eq_of_lt (by omega)]; omega

/-- In continuous mode timer 1's distance from its next expiry: down to the first, from there the latch's period (R302, R304). -/
theorem State.iterate_pulse_expiryIn_timer1 (n : Nat) {s : State} (hmode : s.via.acr.getLsbD 6 = true) :
    expiryIn (State.pulse^[n] s).via.timer1 =
      if n < expiryIn s.via.timer1 then expiryIn s.via.timer1 - n
      else expiryIn s.via.latch1 - (n - expiryIn s.via.timer1) % expiryIn s.via.latch1 := by
  have hfirst := expiryIn_pos s.via.timer1
  have hperiod := expiryIn_pos s.via.latch1
  induction n with
  | zero => rw [if_pos hfirst]; rfl
  | succ n ih =>
    obtain ⟨hacr, hlatch, -⟩ := s.iterate_pulse_keeps n
    rw [Function.iterate_succ_apply', State.pulse_expiryIn_timer1 (hacr ▸ hmode), hlatch, ih]
    by_cases hbefore : n < expiryIn s.via.timer1
    · rw [if_pos hbefore]
      by_cases hlast : n + 1 = expiryIn s.via.timer1
      · have hone : expiryIn s.via.timer1 - n = 1 := by omega
        simp [hone, hlast]
      · rw [if_neg (by omega), if_pos (by omega)]; omega
    · have hafter : ¬ n + 1 < expiryIn s.via.timer1 := by omega
      have hnext : n + 1 - expiryIn s.via.timer1 = n - expiryIn s.via.timer1 + 1 := by omega
      rw [if_neg hbefore, if_neg hafter, hnext, sub_succ_mod _ hperiod]

/-! ## Runs of pulses while reset is held -/

/-- Port B stays, so each pulse of the run is `VIA_STEP` and the full reset and nothing else (R325, R372). -/
theorem State.iterate_pulse_succ_in_reset (n : Nat) {s : State} (hreset : s.via.portB.getLsbD 2 = false) :
    State.pulse^[n + 1] s = { State.pulse^[n] s with via := (State.pulse^[n] s).via.step, psg := Psg.reset } := by
  obtain ⟨-, -, hportB⟩ := s.iterate_pulse_keeps n
  rw [Function.iterate_succ_apply', State.pulse_in_reset (hportB ▸ hreset)]

/-- In reset `n` pulses leave port A, the mark and the draws (R325). -/
theorem State.iterate_pulse_in_reset_keeps (n : Nat) {s : State} (hreset : s.via.portB.getLsbD 2 = false) :
    (State.pulse^[n] s).via.portA = s.via.portA ∧ (State.pulse^[n] s).fault = s.fault ∧
      (State.pulse^[n] s).draws = s.draws := by
  induction n with
  | zero => exact ⟨rfl, rfl, rfl⟩
  | succ n ih =>
    obtain ⟨hportA, hfault, hdraws⟩ := ih
    rw [State.iterate_pulse_succ_in_reset n hreset]
    exact ⟨(Via.step_portA _).trans hportA, hfault, hdraws⟩

/-! ## The obligations -/

/-- Settles O31, by what an instruction can do to each port. -/
theorem portsMoveOnlyBy : Obligations.PortsMoveOnlyBy := by
  intro i s t h
  obtain ⟨-, hread, -⟩ := decodeBus3_low3 s.via.portB
  rw [hread]
  exact ⟨(exec_portB h).resolve_left, (exec_portA h).resolve_left⟩

/-- Settles O55, by what a run of pulses does to the timers and, in reset, to everything else. -/
theorem heldResetRepeats : Obligations.HeldResetRepeats := by
  intro s n hreset
  obtain ⟨-, -, hportB⟩ := s.iterate_pulse_keeps (n + 1)
  obtain ⟨hportA, hfault, hdraws⟩ := State.iterate_pulse_in_reset_keeps (n + 1) hreset
  have hpsg : (State.pulse^[n + 1] s).psg = Psg.reset := by rw [State.iterate_pulse_succ_in_reset n hreset]
  refine ⟨_, pulses_eq (n + 1) s, hpsg, hportB, hportA, hfault, hdraws, s.iterate_pulse_timer2 (n + 1),
    State.iterate_pulse_timer1_oneShot (n + 1), fun hmode => ?_⟩
  rw [← expiryIn_mod (Via.timer1_lt _), State.iterate_pulse_expiryIn_timer1 (n + 1) hmode]
  split
  · have hfirst := expiryIn_le s.via.timer1_lt
    exact Nat.mod_eq_of_lt (by omega)
  · rfl

/-- Settles O35: the pulse with code 0b100 is `VIA_STEP`, the tick and the gated steps, which leave what is listed. -/
theorem busInactive : Obligations.BusInactive := by
  refine fun s => ⟨rfl, rfl, fun hcode => ?_⟩
  obtain ⟨hinactive, -⟩ := decodeBus3_low3 s.via.portB
  have hpulse : s.pulse = (s.setVia s.via.step).tickUp.gatedSteps := by
    rw [State.pulse_eq, hinactive.mp hcode, State.busCycle]
  obtain ⟨hvia, hfault, -, -, hregs, hsel, -⟩ := (s.setVia s.via.step).tickUp.gatedSteps_frame
  refine ⟨s.pulse, exec_clk s, hpulse, ?_⟩
  rw [hpulse, hvia]
  exact ⟨hregs, hsel, s.via.step_portA, hfault⟩

/-- Settles O36: `State.busReset` replaces the PSG and nothing else. -/
theorem busReset : Obligations.BusReset := fun _ => rfl

/-- Settles O37, by the selected register. -/
theorem busReadInRange : Obligations.BusReadInRange := fun _ _ hsel =>
  congrArg Host.Outcome.next (State.busRead_of_selected (Psg.selected_eq_some.mpr hsel))

/-- Settles O38: the bus write and the direct write both perform `Psg.write`. -/
theorem busWriteInRange : Obligations.BusWriteInRange := by
  intro s q hmem hsel
  have hbus : exec .busWrite s = .next (s.setPsg (s.psg.write q.2 s.via.portA)) :=
    congrArg Host.Outcome.next (State.busWrite_of_selected (Psg.selected_eq_some.mpr hsel))
  exact ⟨hbus.trans (exec_psgWrite hmem s).symm, _, hbus, Psg.write_regs q.2 s.via.portA s.psg⟩

/-- Settles O39: with no register selected each access is the fault alone, and so it is in a pulse. -/
theorem busIndexFault : Obligations.BusIndexFault := by
  intro s hsel
  have hnone : s.psg.selected = none := Psg.selected_eq_none.mpr hsel
  refine ⟨congrArg Host.Outcome.next (State.busRead_of_not_selected hnone),
    congrArg Host.Outcome.next (State.busWrite_of_not_selected hnone), fun hcode => ?_⟩
  obtain ⟨-, hread, hwrite, -⟩ := decodeBus3_low3 s.via.portB
  rw [hread, hwrite] at hcode
  obtain ⟨hvia, hfault, -, -, hregs, hsel', htick⟩ :=
    ((s.setVia s.via.step).raiseFault .indexOutOfRange).tickUp.gatedSteps_frame
  refine ⟨s.pulse, exec_clk s, ?_⟩
  rw [State.pulse_of_not_selected hnone hcode, hvia]
  exact ⟨hfault, hregs, s.via.step_portA, hsel', htick⟩

/-- Settles O40: `State.busLatch` stores port A in `sel` and nothing else. -/
theorem busLatch : Obligations.BusLatch := fun _ => rfl

end Sys2Proof.Machine
end

section
/-! The PSG's registers (spec/41_psg_registers.md): what a direct read returns, what each class of write does, and that a
written register reads back, with the VIA's registers of R285. -/

namespace Sys2Proof.Machine

/-! ## Direct reads -/

/-- A direct read returns the stored byte of its register and does nothing else (R150, D42). -/
theorem exec_psgRead {q : Instr × Fin 16} (hq : q ∈ psgReads) (s : State) :
    exec q.1 s = .next (s.returnByte (s.psg.reg q.2)) := by
  simp only [psgReads, List.mem_cons, List.not_mem_nil, or_false] at hq
  rcases hq with h | h | h | h | h | h | h | h | h | h | h | h | h | h | h | h <;> subst h <;> rfl

/-- The word of a read is `0x40 + r` (R112, D30). -/
theorem encode_psgRead : ∀ q ∈ psgReads, encode q.1 = [0x40#8 + BitVec.ofNat 8 q.2.val] := by decide

/-! ## Writes that recompute a period -/

/-- The two registers of a channel are two registers (R21). -/
theorem fineReg_ne_coarseReg (c : Fin 3) : fineReg c ≠ coarseReg c := by
  simp only [fineReg, coarseReg, ne_eq, Fin.mk.injEq]; omega

/-- A fine write takes the new low byte and the stored high nibble. -/
theorem Psg.writeFine_eq (c : Fin 3) (v : Byte) (p : Psg) :
    p.writeFine c v = { p with
      regs := p.regs.set (fineReg c) v
      tone := p.tone.set c { p.tone[c] with
        period := tonePeriod v (p.reg (coarseReg c)), counter := eff (tonePeriod v (p.reg (coarseReg c))) } } := by
  simp only [Psg.writeFine, Psg.reloadTone, Psg.reg_store, if_true, if_neg (fineReg_ne_coarseReg c)]
  rfl

/-- A coarse write takes the stored low byte and the new high nibble. -/
theorem Psg.writeCoarse_eq (c : Fin 3) (v : Byte) (p : Psg) :
    p.writeCoarse c v = { p with
      regs := p.regs.set (coarseReg c) v
      tone := p.tone.set c { p.tone[c] with
        period := tonePeriod (p.reg (fineReg c)) v, counter := eff (tonePeriod (p.reg (fineReg c)) v) } } := by
  simp only [Psg.writeCoarse, Psg.reloadTone, Psg.reg_store, if_true, if_neg (fineReg_ne_coarseReg c).symm]
  rfl

/-- The writes to a fine register are `Psg.writeFine` of their channel (R151, R153, R155). -/
theorem exec_fineWrite {v : Byte} {q : Instr × Fin 3} (hq : q ∈ fineWrites v) (s : State) :
    exec q.1 s = .next (s.setPsg (s.psg.writeFine q.2 v)) := by
  simp only [fineWrites, List.mem_cons, List.not_mem_nil, or_false] at hq
  rcases hq with h | h | h <;> subst h <;> rfl

/-- The writes to a coarse register are `Psg.writeCoarse` of their channel (R152, R154, R156). -/
theorem exec_coarseWrite {v : Byte} {q : Instr × Fin 3} (hq : q ∈ coarseWrites v) (s : State) :
    exec q.1 s = .next (s.setPsg (s.psg.writeCoarse q.2 v)) := by
  simp only [coarseWrites, List.mem_cons, List.not_mem_nil, or_false] at hq
  rcases hq with h | h | h <;> subst h <;> rfl

/-- A write to register 6 takes its period from the new byte (R157). -/
theorem Psg.store_reloadNoise_eq (v : Byte) (p : Psg) :
    (p.store 6 v).reloadNoise = { p with
      regs := p.regs.set 6 v
      noise := { p.noise with period := noisePeriod v, counter := eff (noisePeriod v) } } := by
  simp only [Psg.reloadNoise, Psg.reg_store, if_true]
  rfl

/-! ## Writes that only store -/

/-- The plain writes are direct writes whose register has no side effect (R158 to R163, R165, R166), and their word is `0x50 + r`
(R112, D30). -/
theorem plainWrites_spec {v : Byte} {q : Instr × Fin 16} (hq : q ∈ plainWrites v) :
    q ∈ psgWrites v ∧ (∀ p : Psg, p.write q.2 v = p.store q.2 v) ∧
      encode q.1 = [0x50#8 + BitVec.ofNat 8 q.2.val, v] := by
  simp only [plainWrites, List.mem_cons, List.not_mem_nil, or_false] at hq
  rcases hq with h | h | h | h | h | h | h | h <;> subst h <;> exact ⟨by simp [psgWrites], fun _ => rfl, rfl⟩

/-! ## The obligations -/

/-- Settles O17: a register write stores its byte and the read returns it; of the VIA each pair in turn, and on an output bit
the merge takes the written byte. -/
theorem writtenRegistersReadBack : Obligations.WrittenRegistersReadBack := by
  intro s v
  refine ⟨fun w hw r hr hwr => ⟨_, exec_psgWrite hw s, ?_⟩, fun q hq => ?_, ⟨_, _, rfl, rfl, rfl⟩, fun hset => ?_,
    ⟨_, _, _, rfl, rfl, rfl, fun j _ hout => ?_⟩, ⟨_, _, _, rfl, rfl, rfl, fun j _ hout => ?_⟩⟩
  · rw [exec_psgRead hr, State.setPsg_psg, Psg.reg_write, if_pos hwr]; rfl
  · simp only [List.mem_cons, List.not_mem_nil, or_false] at hq
    rcases hq with h | h | h | h | h | h | h | h | h | h | h | h <;> subst h <;> exact ⟨_, rfl, rfl⟩
  · have hcommand : enableCommand v = v := if_pos hset
    exact ⟨_, rfl, congrArg (fun b => Host.Outcome.next (State.returnByte _ b)) hcommand⟩
  · exact (mergeBits_getLsbD _ _ _ j).trans (if_pos hout)
  · exact (mergeBits_getLsbD _ _ _ j).trans (if_pos hout)

/-- Settles O12, by the read of each register and the bus read of the selected one. -/
theorem psgReadReturnsStored : Obligations.PsgReadReturnsStored := fun s q hq =>
  ⟨exec_psgRead hq s, encode_psgRead q hq, fun hsel =>
    congrArg Host.Outcome.next (State.busRead_of_selected (Psg.selected_eq_some.mpr hsel))⟩

/-- Settles O13: each register of the pair is written in the same way, and the period is the pair's. -/
theorem psgWriteTonePeriods : Obligations.PsgWriteTonePeriods := by
  refine fun s v => ⟨fun q hq => ⟨_, _, tonePeriod_toNat v _, eff_toNat (by omega) _, ?_⟩,
    fun q hq => ⟨_, _, tonePeriod_toNat _ v, eff_toNat (by omega) _, ?_⟩⟩
  · rw [exec_fineWrite hq, Psg.writeFine_eq]; rfl
  · rw [exec_coarseWrite hq, Psg.writeCoarse_eq]; rfl

/-- Settles O14: the period is the low five bits of the byte, and the counter its reload. -/
theorem psgWriteNoisePeriod : Obligations.PsgWriteNoisePeriod := fun s v =>
  ⟨noisePeriod v, eff (noisePeriod v), noisePeriod_toNat v, eff_toNat (by omega) _,
    congrArg (fun p => Host.Outcome.next (s.setPsg p)) (Psg.store_reloadNoise_eq v s.psg)⟩

/-- Settles O15: the direct write and the bus write both perform `Psg.write`, which only stores at these registers. -/
theorem psgWritePlain : Obligations.PsgWritePlain := by
  intro s v q hq
  obtain ⟨hmem, hstore, hword⟩ := plainWrites_spec hq
  have hdirect := exec_psgWrite hmem s
  refine ⟨?_, hword, fun hsel hport => ?_⟩
  · rw [hdirect, hstore]; rfl
  · rw [hdirect, ← hport]
    exact congrArg Host.Outcome.next (State.busWrite_of_selected (Psg.selected_eq_some.mpr hsel))

/-- Settles O16: the store and `Psg.restartEnvelope` are the whole of the write, whatever the byte. -/
theorem psgWriteShape : Obligations.PsgWriteShape := fun _ _ => rfl

end Sys2Proof.Machine
end

section
/-! The tones and the noise (spec/42_psg_tone_noise.md): one synthesis step of each divider in numbers, and with the bus inactive
the square wave of a tone. -/

namespace Sys2Proof.Machine

/-! ## A tone divider in numbers -/

/-- A tone divider at 1 reloads and inverts (R190). -/
theorem ToneChannel.step_of_counter_one {t : ToneChannel} (h : t.counter.toNat = 1) :
    t.step.counter.toNat = effNat t.period.toNat ∧ t.step.signal = !t.signal := by
  have hone : t.counter = 1#12 := BitVec.eq_of_toNat_eq h
  rw [ToneChannel.step_spec h.ge, if_pos hone]
  exact ⟨eff_toNat (by omega) _, rfl⟩

/-- A tone divider above 1 counts down and keeps its signal (R190). -/
theorem ToneChannel.step_of_one_lt_counter {t : ToneChannel} (h : 1 < t.counter.toNat) :
    t.step.counter.toNat = t.counter.toNat - 1 ∧ t.step.signal = t.signal := by
  have hone : t.counter ≠ 1#12 := fun hone => by simp [hone] at h
  rw [ToneChannel.step_spec h.le, if_neg hone]
  exact ⟨BitVec.toNat_sub_of_le h.le, rfl⟩

/-- From a fresh load, `k` steps later: `k mod eff(period)` steps are spent since the last reload, and there were
`k / eff(period)` reloads, each of which inverted the signal (R194). -/
theorem ToneChannel.iterate_step_of_loaded {t : ToneChannel} (k : Nat) (hload : t.counter.toNat = effNat t.period.toNat) :
    (ToneChannel.step^[k] t).period = t.period ∧
      (ToneChannel.step^[k] t).counter.toNat = effNat t.period.toNat - k % effNat t.period.toNat ∧
      (ToneChannel.step^[k] t).signal = (t.signal ^^ decide (k / effNat t.period.toNat % 2 = 1)) := by
  have hpos := effNat_pos t.period.toNat
  induction k with
  | zero => simp [hload]
  | succ k ih =>
    obtain ⟨hperiod, hcounter, hsignal⟩ := ih
    have hlt := Nat.mod_lt (k + 1) hpos
    have hnext := sub_succ_mod k hpos
    rw [Function.iterate_succ_apply', ToneChannel.step_period]
    refine ⟨hperiod, ?_⟩
    by_cases hlast : effNat t.period.toNat - k % effNat t.period.toNat = 1
    · obtain ⟨hreload, hinvert⟩ := ToneChannel.step_of_counter_one (hcounter.trans hlast)
      rw [if_pos hlast] at hnext
      have hdiv : (k + 1) / effNat t.period.toNat = k / effNat t.period.toNat + 1 :=
        Nat.succ_div_of_mod_eq_zero (by omega)
      have hparity : (k / effNat t.period.toNat + 1) % 2 = 1 ↔ ¬ k / effNat t.period.toNat % 2 = 1 := by omega
      refine ⟨by rw [hreload, hperiod, hnext], ?_⟩
      rw [hinvert, hsignal, hdiv, decide_eq_decide.mpr hparity, decide_not, Bool.xor_not]
    · have hrun := Nat.mod_lt k hpos
      obtain ⟨hcount, hkeep⟩ := ToneChannel.step_of_one_lt_counter (t := ToneChannel.step^[k] t) (by omega)
      rw [if_neg hlast] at hnext
      have hdiv : (k + 1) / effNat t.period.toNat = k / effNat t.period.toNat :=
        Nat.succ_div_of_mod_ne_zero (by omega)
      exact ⟨by rw [hcount, hcounter, hnext], by rw [hkeep, hsignal, hdiv]⟩

/-! ## The noise divider in numbers -/

theorem NoiseGen.step_period (b : Bool) (n : NoiseGen) : (n.step b).period = n.period := by
  unfold NoiseGen.step; split <;> rfl

/-- The noise divider at 1 reloads and takes the drawn bit (R191). -/
theorem NoiseGen.step_of_counter_one {n : NoiseGen} (b : Bool) (h : n.counter.toNat = 1) :
    (n.step b).counter.toNat = effNat n.period.toNat ∧ (n.step b).signal = b := by
  have hone : n.counter = 1#5 := BitVec.eq_of_toNat_eq h
  rw [NoiseGen.step_spec b h.ge, if_pos hone]
  exact ⟨eff_toNat (by omega) _, rfl⟩

/-- The noise divider above 1 counts down and keeps its signal (R191). -/
theorem NoiseGen.step_of_one_lt_counter {n : NoiseGen} (b : Bool) (h : 1 < n.counter.toNat) :
    (n.step b).counter.toNat = n.counter.toNat - 1 ∧ (n.step b).signal = n.signal := by
  have hone : n.counter ≠ 1#5 := fun hone => by simp [hone] at h
  rw [NoiseGen.step_spec b h.le, if_neg hone]
  exact ⟨BitVec.toNat_sub_of_le h.le, rfl⟩

/-! ## The dividers in a synthesis step and in a pulse -/

/-- A synthesis step is one step of each channel, which sees no other channel (R190, R195). -/
theorem State.synthStep_tone (s : State) (c : Fin 3) : s.synthStep.psg.tone[c] = (s.psg.tone[c]).step :=
  Vector.getElem_map ..

theorem State.synthStep_noise (s : State) : s.synthStep.psg.noise = s.psg.noise.step (Config.noiseSource s.draws) := rfl

/-- A draw is used up exactly where the noise divider reloads (R191, R192). -/
theorem State.synthStep_draws (s : State) :
    s.synthStep.draws = if s.psg.noise.reloads then s.draws + 1 else s.draws := rfl

theorem State.gatedSteps_tone (s : State) (c : Fin 3) :
    s.gatedSteps.psg.tone[c] = if s.psg.tick.toNat % 16 = 0 then (s.psg.tone[c]).step else s.psg.tone[c] := by
  unfold State.gatedSteps
  split_ifs
  · exact s.synthStep_tone c
  · exact s.synthStep_tone c
  · rfl

/-- With the bus inactive a pulse counts the tick, and steps a channel where the new tick is a multiple of 16 (R132, R322). -/
theorem State.pulse_tone_of_inactive {s : State} (hbus : decodeBus3 s.via.portB = .inactive) (c : Fin 3) :
    s.pulse.psg.tick = s.psg.tick + 1#8 ∧
      s.pulse.psg.tone[c] =
        if (s.psg.tick + 1#8).toNat % 16 = 0 then (s.psg.tone[c]).step else s.psg.tone[c] := by
  obtain ⟨-, -, -, -, -, -, htick⟩ := (s.setVia s.via.step).tickUp.gatedSteps_frame
  rw [State.pulse_eq, hbus, State.busCycle]
  exact ⟨htick, State.gatedSteps_tone _ c⟩

/-- With the bus inactive `n` pulses step a channel once for every 16th tick they pass (R322, R327). -/
theorem State.iterate_pulse_tone {s : State} (n : Nat) (hbus : decodeBus3 s.via.portB = .inactive) (c : Fin 3) :
    (State.pulse^[n] s).psg.tick.toNat = (s.psg.tick.toNat + n) % 256 ∧
      (State.pulse^[n] s).psg.tone[c] = ToneChannel.step^[(s.psg.tick.toNat % 16 + n) / 16] s.psg.tone[c] := by
  induction n with
  | zero =>
    have hnone : s.psg.tick.toNat % 16 / 16 = 0 := by omega
    exact ⟨(Nat.mod_eq_of_lt s.psg.tick.isLt).symm, by rw [Nat.add_zero, hnone]; rfl⟩
  | succ n ih =>
    obtain ⟨htick, htone⟩ := ih
    obtain ⟨-, -, hportB⟩ := s.iterate_pulse_keeps n
    obtain ⟨htick', htone'⟩ := State.pulse_tone_of_inactive (hportB ▸ hbus) c
    have hnew : ((State.pulse^[n] s).psg.tick + 1#8).toNat = (s.psg.tick.toNat + (n + 1)) % 256 := by
      rw [BitVec.toNat_add, htick, Nat.mod_add_mod]; rfl
    rw [Function.iterate_succ_apply', htick', htone', hnew, htone]
    refine ⟨rfl, ?_⟩
    split
    · have hnext : (s.psg.tick.toNat % 16 + (n + 1)) / 16 = (s.psg.tick.toNat % 16 + n) / 16 + 1 := by omega
      rw [hnext, Function.iterate_succ_apply']
    · have hsame : (s.psg.tick.toNat % 16 + (n + 1)) / 16 = (s.psg.tick.toNat % 16 + n) / 16 := by omega
      rw [hsame]

/-! ## The obligations -/

/-- Settles O48, by the step of the one channel. -/
theorem synthesisStepMovesTheTones : Obligations.SynthesisStepMovesTheTones := by
  intro s c hrun
  rw [State.synthStep_tone]
  exact ⟨ToneChannel.step_period _, ToneChannel.step_of_counter_one,
    fun hne => ToneChannel.step_of_one_lt_counter (by omega)⟩

/-- Settles O49, by the noise divider's step; it reloads, and so draws, at 1 only. -/
theorem synthesisStepDrawsNoise : Obligations.SynthesisStepDrawsNoise := by
  intro s hrun
  rw [State.synthStep_noise, State.synthStep_draws]
  refine ⟨NoiseGen.step_period _ _, fun hone => ?_, fun hne => ?_⟩
  · obtain ⟨hreload, hdrawn⟩ := NoiseGen.step_of_counter_one (Config.noiseSource s.draws) hone
    exact ⟨hreload, hdrawn, if_pos (NoiseGen.reloads_iff.mpr (BitVec.eq_of_toNat_eq hone))⟩
  · obtain ⟨hcount, hkeep⟩ := NoiseGen.step_of_one_lt_counter (n := s.psg.noise) (Config.noiseSource s.draws) (by omega)
    exact ⟨hcount, hkeep, if_neg fun hreloads => hne (by rw [NoiseGen.reloads_iff.mp hreloads]; rfl)⟩

/-- Settles O56: the `16 k` pulses are `k` steps of the channel. -/
theorem toneHalfPeriod : Obligations.ToneHalfPeriod := by
  intro s c k hcode htick hload
  obtain ⟨hinactive, -⟩ := decodeBus3_low3 s.via.portB
  obtain ⟨-, htone⟩ := State.iterate_pulse_tone (16 * k) (hinactive.mp hcode) c
  have hsteps : (s.psg.tick.toNat % 16 + 16 * k) / 16 = k := by omega
  obtain ⟨hperiod, -, hsignal⟩ := ToneChannel.iterate_step_of_loaded k hload
  refine ⟨_, pulses_eq (16 * k) s, ?_⟩
  rw [htone, hsteps]
  exact ⟨hperiod, hsignal⟩

end Sys2Proof.Machine
end

section
/-! The envelope (spec/43_psg_envelope.md): one envelope step in numbers under each shape code, the level a shape settles at, and
the length of a period. -/

namespace Sys2Proof.Machine

/-! ## The shape code's bits (R26, R210) -/

/-- Of each of the sixteen codes the model reads back the bits it was made of. -/
theorem ShapeBits.code_bits (b : ShapeBits) :
    shapeContinue b.code = b.cont ∧ shapeAttack b.code = b.att ∧ shapeAlternate b.code = b.alt ∧ shapeHold b.code = b.hold := by
  obtain ⟨_ | _, _ | _, _ | _, _ | _⟩ := b <;> exact ⟨rfl, rfl, rfl, rfl⟩

/-! ## The level in numbers -/

theorem envPosition_eq_positionNat (len rem : Nat) : envPosition len rem = positionNat len rem := by
  unfold envPosition positionNat
  split
  · rfl
  · exact Nat.zero_div len

/-- The level in numbers, once the first period has begun (R214 to R218). -/
theorem ShapeBits.envLevel_code (b : ShapeBits) {step pc : Nat} (hstep : step ≤ 15) (hpc : pc ≠ 0) :
    (envLevel b.code step pc).toNat = b.level step pc := by
  have hodd : (pc - 1) % 2 = 1 ↔ ¬ pc % 2 = 1 := by omega
  obtain ⟨hcont, hatt, halt, hhold⟩ := b.code_bits
  simp only [envLevel, ShapeBits.level, rampNat, hcont, hatt, halt, hhold, if_neg hpc, hodd]
  obtain ⟨cont, att, alt, hold⟩ := b
  by_cases hfirst : pc = 1
  · simp only [if_pos hfirst]
    exact ramp_toNat hstep att
  · simp only [if_neg hfirst]
    cases cont
    case false => rfl
    cases hold
    case true => cases alt <;> cases att <;> rfl
    cases alt
    case false => exact ramp_toNat hstep att
    by_cases hpar : pc % 2 = 1 <;> simp [hpar, ramp_toNat hstep]

/-- From the second period on, a shape that does not continue, or that holds, has one level (R215, R216). -/
theorem ShapeBits.level_eq_settled {b : ShapeBits} (hstays : b.cont = false ∨ b.hold = true) (step : Nat) {pc : Nat}
    (hpc : 2 ≤ pc) : b.level step pc = b.settled := by
  unfold ShapeBits.level ShapeBits.settled
  rw [if_neg (by omega)]
  by_cases hcont : b.cont = false
  · simp [hcont]
  · rw [if_neg hcont, if_pos (hstays.resolve_left hcont)]
    by_cases halt : b.alt = b.att <;> simp [hcont, halt]

/-! ## An envelope step in numbers -/

/-- The count reaches 0 from 1 only, in whatever state (R212). -/
theorem Envelope.countsOut_iff (e : Envelope) : e.remaining - 1#17 = 0#17 ↔ e.remaining.toNat = 1 := by
  bv_omega

/-- The number of the period goes up by one where the counter stands at 1 (R212). -/
theorem Envelope.step_periodCounter (e : Envelope) (code : BitVec 4) (len : Nat) :
    (e.step code len).periodCounter = if e.remaining.toNat = 1 then e.periodCounter + 1 else e.periodCounter := by
  simp only [Envelope.step, Envelope.count, e.countsOut_iff]
  split <;> rfl

/-- A running counter takes the period's length at 1 and else counts down (R212). -/
theorem Envelope.step_remaining {e : Envelope} (code : BitVec 4) {len : Nat} (hrun : 1 ≤ e.remaining.toNat)
    (hlen : len ≤ 65536) :
    (e.step code len).remaining.toNat = if e.remaining.toNat = 1 then len else e.remaining.toNat - 1 := by
  simp only [Envelope.step, Envelope.count, e.countsOut_iff]
  split
  · exact Nat.mod_eq_of_lt (by omega)
  · exact BitVec.toNat_sub_of_le hrun

/-- Whatever the counter held, a step leaves it at 1 or more: where the count reaches 0 it reloads (R212). -/
theorem Envelope.one_le_step_remaining (e : Envelope) (code : BitVec 4) {len : Nat} (hpos : 1 ≤ len) (hlen : len ≤ 65536) :
    1 ≤ (e.step code len).remaining.toNat := by
  simp only [Envelope.step, Envelope.count]
  split
  · exact hpos.trans_eq (Nat.mod_eq_of_lt (by omega)).symm
  · bv_omega

/-- A step's level is the shape's level at the position and in the period the count left (R212 to R218). -/
theorem Envelope.step_value (e : Envelope) (b : ShapeBits) {len : Nat} (hpos : 1 ≤ len) (hlen : len ≤ 65536)
    (hpc : (e.step b.code len).periodCounter ≠ 0) :
    (e.step b.code len).value.toNat =
      b.level (positionNat len (e.step b.code len).remaining.toNat) (e.step b.code len).periodCounter := by
  rw [← envPosition_eq_positionNat]
  exact b.envLevel_code (envPosition_le hpos (e.one_le_step_remaining b.code hpos hlen)) hpc

/-! ## The envelope step of the PSG and of the shape rows -/

theorem Psg.envStep_eq (code : BitVec 4) (p : Psg) :
    p.envStep code = { p with env := p.env.step code p.periodLength } := by
  rw [Psg.envStep, envLength_eq]

/-- A row of the shape table performs the envelope step with its own bits, and nothing else (R107). -/
theorem exec_shapeRow {q : Instr × ShapeBits} (hq : q ∈ shapeTable) (s : State) :
    exec q.1 s = .next { s with psg := { s.psg with env := s.psg.env.step q.2.code s.psg.periodLength } } := by
  have hrow : ∀ q ∈ shapeTable, shapeOf q.2.code = q.1 := by decide
  rw [← hrow q hq, exec_shapeOf, Psg.envStep_eq]
  rfl

/-- Envelope steps leave the length registers alone, so all of a run's steps have the length of its start (R211, D12). -/
theorem Psg.iterate_envStep_env (code : BitVec 4) (k : Nat) (p : Psg) :
    ((Psg.envStep code)^[k] p).env = (Envelope.step code p.periodLength)^[k] p.env := by
  induction k generalizing p with
  | zero => rfl
  | succ k ih =>
    rw [Function.iterate_succ_apply, Function.iterate_succ_apply, ih, Psg.envStep_eq]
    rfl

/-! ## The length of a period -/

/-- Where a countdown of period `p` stands at 1, the next step begins a new period; the companion of `sub_succ_mod`. -/
theorem succ_div_eq_ite {p : Nat} (k : Nat) (hp : 0 < p) : (k + 1) / p = if p - k % p = 1 then k / p + 1 else k / p := by
  have hlt := Nat.mod_lt (k + 1) hp
  have hnext := sub_succ_mod k hp
  split_ifs at hnext ⊢
  · exact Nat.succ_div_of_mod_eq_zero (by omega)
  · have := Nat.mod_lt k hp
    exact Nat.succ_div_of_mod_ne_zero (by omega)

/-- From a restart, `k + 1` steps later, `k mod len` steps of the current period are spent, and `k / len` periods are over
(R212, R221). -/
theorem Envelope.iterate_step_of_restarted (code : BitVec 4) {len : Nat} {e : Envelope} (k : Nat) (hpos : 1 ≤ len)
    (hlen : len ≤ 65536) (hrem : e.remaining.toNat = 1) (hpc : e.periodCounter = 0) :
    ((Envelope.step code len)^[k + 1] e).remaining.toNat = len - k % len ∧
      ((Envelope.step code len)^[k + 1] e).periodCounter = k / len + 1 := by
  induction k with
  | zero =>
    rw [Function.iterate_one, Envelope.step_remaining code hrem.ge hlen, Envelope.step_periodCounter, if_pos hrem, if_pos hrem,
      hpc, Nat.zero_mod, Nat.zero_div]
    exact ⟨rfl, rfl⟩
  | succ k ih =>
    obtain ⟨hremaining, hcounter⟩ := ih
    have hlt := Nat.mod_lt k hpos
    rw [Function.iterate_succ_apply', Envelope.step_remaining code (by omega) hlen, Envelope.step_periodCounter, hremaining,
      hcounter, sub_succ_mod k hpos, succ_div_eq_ite k hpos]
    exact ⟨rfl, (apply_ite (· + 1) _ _ _).symm⟩

/-! ## The obligations -/

/-- Settles O51, by the step in numbers; under the invariant no step ends before the first period. -/
theorem envelopeStepByCode : Obligations.EnvelopeStepByCode := by
  intro s hinv q hq
  obtain ⟨hrun, -, hrestarted⟩ := hinv
  obtain ⟨hpos, hlen⟩ := periodLength_bounds s.psg
  have hrem := Envelope.step_remaining q.2.code hrun hlen
  have hpc := s.psg.env.step_periodCounter q.2.code s.psg.periodLength
  have hbegun : (s.psg.env.step q.2.code s.psg.periodLength).periodCounter ≠ 0 := by
    rw [hpc]
    split
    · exact Nat.succ_ne_zero _
    · next hne => exact fun hzero => hne (congrArg BitVec.toNat (hrestarted hzero))
  refine ⟨_, exec_shapeRow hq s, fun hone => ?_, fun hne => ?_, Envelope.step_value _ q.2 hpos hlen hbegun⟩
  · rw [hrem, hpc, if_pos hone, if_pos hone]
    exact ⟨rfl, rfl⟩
  · rw [hrem, hpc, if_neg hne, if_neg hne]
    exact ⟨rfl, rfl⟩

/-- Settles O52: a step from the second period, or from the last step of the first, ends in the second period or later, where
the shape's level is `ShapeBits.settled`. -/
theorem envelopeSettles : Obligations.EnvelopeSettles := by
  intro s q hq hstays hfrom
  obtain ⟨hpos, hlen⟩ := periodLength_bounds s.psg
  have hlater : 2 ≤ (s.psg.env.step q.2.code s.psg.periodLength).periodCounter := by
    rw [Envelope.step_periodCounter]
    obtain hsecond | ⟨hfirst, hlast⟩ := hfrom
    · split <;> omega
    · have hone : s.psg.env.remaining.toNat = 1 := congrArg BitVec.toNat hlast
      rw [if_pos hone]
      omega
  exact ⟨_, exec_shapeRow hq s,
    (Envelope.step_value _ q.2 hpos hlen (by omega)).trans (ShapeBits.level_eq_settled hstays _ hlater), hlater⟩

/-- Settles O58: the PSG's envelope steps are steps of its envelope, each with the length of the start. -/
theorem envelopePeriodCount : Obligations.EnvelopePeriodCount := by
  intro p code k hrem hpc
  obtain ⟨hpos, hlen⟩ := periodLength_bounds p
  rw [Psg.iterate_envStep_env]
  exact Envelope.iterate_step_of_restarted code k hpos hlen (congrArg BitVec.toNat hrem) hpc

end Sys2Proof.Machine
end

section
/-! The mixer and the buffer (spec/44_psg_mixer_buffer.md): a sample in numbers, what a synthesis step appends, and how many
samples a run of pulses outside reset appends. -/

namespace Sys2Proof.Machine

/-! ## The mix in numbers (R230 to R233) -/

theorem gatedSignal_iff (p : Psg) (c : Fin 3) :
    gatedSignal p c = true ↔
      (p.regs[7].getLsbD c.val = false ∧ (p.tone[c]).signal = true) ∨
        (p.regs[7].getLsbD (c.val + 3) = false ∧ p.noise.signal = true) := by
  simp only [gatedSignal, toneGate, noiseGate, Bool.or_eq_true, Bool.and_eq_true, Bool.not_eq_true']
  rfl

theorem mixedChannel_eq_mixedNat (p : Psg) (c : Fin 3) :
    mixedChannel p c =
      mixedNat c.val p.regs[7] p.regs[ampReg c] (p.tone[c]).signal p.noise.signal p.env.value.toNat := by
  simp only [mixedChannel, mixedNat, gatedSignal_iff, channelLevel_toNat]
  rfl

theorem mixSample_eq_sampleNat (gain : Nat) (p : Psg) : (mixSample gain p).toNat = sampleNat gain p := by
  rw [mixSample_toNat, mixedChannel_eq_mixedNat, mixedChannel_eq_mixedNat, mixedChannel_eq_mixedNat]
  rfl

/-! ## The append in a synthesis step (R234) -/

/-- The sample is of the signals after the step, and the append changes nothing it is made of (R195, D10). -/
theorem State.synthStep_buf (s : State) :
    s.synthStep.psg.buf = Memory.write s.psg.buf s.psg.cursor (mixSample Config.mixGain s.synthStep.psg) := rfl

theorem State.synthStep_cursor (s : State) : s.synthStep.psg.cursor = (s.psg.cursor + 1) % Config.bufCap := rfl

/-! ## Runs of pulses outside reset (R235, R322, R327) -/

/-- Outside reset `n` pulses count the tick on by `n` and move the cursor once for every 16th tick they pass; only a bus write
changes the registers, and only a latch `sel`. -/
theorem State.iterate_pulse_outside_reset {s : State} (n : Nat) (hout : s.via.portB.getLsbD 2 = true)
    (hcursor : s.psg.cursor < Config.bufCap) :
    (State.pulse^[n] s).psg.tick.toNat = (s.psg.tick.toNat + n) % 256 ∧
      (State.pulse^[n] s).psg.cursor = (s.psg.cursor + (s.psg.tick.toNat % 16 + n) / 16) % Config.bufCap ∧
      (decodeBus3 s.via.portB ≠ .write → (State.pulse^[n] s).psg.regs = s.psg.regs) ∧
      (decodeBus3 s.via.portB ≠ .latch → (State.pulse^[n] s).psg.sel = s.psg.sel) := by
  induction n with
  | zero =>
    have hnone : s.psg.tick.toNat % 16 / 16 = 0 := by omega
    refine ⟨(Nat.mod_eq_of_lt s.psg.tick.isLt).symm, ?_, fun _ => rfl, fun _ => rfl⟩
    rw [Nat.add_zero, hnone, Nat.add_zero, Nat.mod_eq_of_lt hcursor]
    rfl
  | succ n ih =>
    obtain ⟨htick, hmoved, hregs, hsel⟩ := ih
    obtain ⟨-, -, hportB⟩ := s.iterate_pulse_keeps n
    obtain ⟨htick', hmoved', hregs', hsel'⟩ := State.pulse_outside_reset (hportB ▸ hout)
    have hnew : ((State.pulse^[n] s).psg.tick + 1#8).toNat = (s.psg.tick.toNat + (n + 1)) % 256 := by
      rw [BitVec.toNat_add, htick, Nat.mod_add_mod]; rfl
    rw [hportB] at hregs' hsel'
    rw [Function.iterate_succ_apply', htick', hmoved', hnew, hmoved]
    refine ⟨rfl, ?_, fun hbus => (hregs' hbus).trans (hregs hbus), fun hbus => (hsel' hbus).trans (hsel hbus)⟩
    split
    · have hnext : (s.psg.tick.toNat % 16 + (n + 1)) / 16 = (s.psg.tick.toNat % 16 + n) / 16 + 1 := by omega
      rw [hnext, Nat.mod_add_mod, Nat.add_assoc]
    · have hsame : (s.psg.tick.toNat % 16 + (n + 1)) / 16 = (s.psg.tick.toNat % 16 + n) / 16 := by omega
      rw [hsame]

/-! ## The obligations -/

/-- Settles O50: the sample stands at the cursor and no other cell changes, by the law of a store in a buffer in its form. -/
theorem synthesisStepAppendsTheMix : Obligations.SynthesisStepAppendsTheMix := by
  intro s hinv
  have hform := hinv.psg.bufForm
  refine ⟨?_, fun a hother => ?_, s.synthStep_cursor, s.synthStep_regs, s.synthStep_sel, s.synthStep_env, s.synthStep_tick,
    s.synthStep_via, s.synthStep_fault, s.synthStep_result, s.synthStep_inbox⟩
  · rw [State.synthStep_buf, Memory.read_write_same hform, mixSample_eq_sampleNat]
  · rw [State.synthStep_buf, Memory.read_write_other hform _ hother]

/-- Settles O57, by the run outside reset; the bus code is read off port B. -/
theorem sampleEverySixteenPulses : Obligations.SampleEverySixteenPulses := by
  intro s n hout hcursor
  obtain ⟨-, -, hwrite, hlatch⟩ := decodeBus3_low3 s.via.portB
  obtain ⟨htick, hmoved, hregs, hsel⟩ := State.iterate_pulse_outside_reset n hout hcursor
  exact ⟨_, pulses_eq n s, hmoved, htick, fun hcode => hregs (mt hwrite.mpr hcode), fun hcode => hsel (mt hlatch.mpr hcode)⟩

/-- Settles O41: the pair is the only thing set, and the array is the reads of the cells in order. -/
theorem drainReturnsTheBuffer : Obligations.DrainReturnsTheBuffer := by
  refine fun s => ⟨rfl, ?_, fun a hinside => ?_⟩
  · rw [Memory.samples, List.length_map, List.length_range]
  · rw [Memory.samples, List.getElem?_map, List.getElem?_range hinside]
    rfl

end Sys2Proof.Machine
end

section
/-! The VIA's registers (spec/45_via_registers.md): what a `VIA_RD` returns, what a `VIA_WR` stores, and, over a whole pulse,
the flags and the events that the two timers raise (R282). -/

namespace Sys2Proof.Machine

/-! ## The flags and the events of a pulse -/

/-- Timer 1 raises at an expiry, in one-shot mode only while its flag is clear (R302). -/
theorem Via.raises1_iff (x : Via) :
    x.raises1 = true ↔ x.timer1 = 1 ∧ (x.acr.getLsbD 6 = true ∨ x.ifr.getLsbD 6 = false) := by
  simp [Via.raises1, Via.expires1]

/-- Timer 2 raises at an expiry while its flag is clear (R303). -/
theorem Via.raises2_iff (x : Via) : x.raises2 = true ↔ x.timer2 = 1 ∧ x.ifr.getLsbD 5 = false := by
  simp [Via.raises2, Via.expires2]

/-- The bus action and the gated steps of a pulse leave the flags as `VIA_STEP` left them (R320). -/
theorem State.pulse_ifr (s : State) : s.pulse.via.ifr = s.via.step.ifr := by
  obtain ⟨a, hvia, -⟩ := s.pulse_via
  rw [hvia]

/-- Only `VIA_STEP` emits in a pulse (R320). -/
theorem State.pulse_irqTrace (s : State) : s.pulse.via.irqTrace = s.via.step.irqTrace := by
  obtain ⟨a, hvia, -⟩ := s.pulse_via
  rw [hvia]

/-- An event emitted under a condition, as a number of events. -/
theorem irq_if_eq_replicate (c : Prop) [Decidable c] :
    (if c then [IrqEvent.irq] else []) = List.replicate (if c then 1 else 0) .irq := by
  split <;> rfl

/-- `VIA_STEP` emits one event for each timer that raises with its enable bit set (R282, D26). -/
theorem Via.step_irqTrace_eq_replicate (x : Via) :
    x.step.irqTrace = x.irqTrace ++ List.replicate
      ((if x.raises1 = true ∧ x.ier.getLsbD 6 = true then 1 else 0) +
        if x.raises2 = true ∧ x.ier.getLsbD 5 = true then 1 else 0) .irq := by
  simp only [Via.step_irqTrace, Bool.and_eq_true, irq_if_eq_replicate, List.append_assoc, List.replicate_add]

/-- `VIA_STEP` keeps every set flag; it sets bit 6 or 5 at that timer's expiry and bit 7 at an enabled raise (R282, D3). -/
theorem Via.step_ifr_iff (x : Via) {j : Nat} (hj : j < 8) :
    x.step.ifr.getLsbD j = true ↔ x.ifr.getLsbD j = true ∨ j = 6 ∧ x.timer1 = 1 ∨ j = 5 ∧ x.timer2 = 1 ∨
      j = 7 ∧ (x.raises1 = true ∧ x.ier.getLsbD 6 = true ∨ x.raises2 = true ∧ x.ier.getLsbD 5 = true) := by
  simp only [x.step_ifr j hj, Via.expires1, Via.expires2, Bool.or_eq_true, Bool.and_eq_true, decide_eq_true_eq, or_assoc]

/-! ## The enable command -/

/-- What an enable command stores, bit by bit: the bit of the command, or its complement where bit 7 is clear (R264, D29). -/
theorem enableCommand_getLsbD (v : Byte) {j : Nat} (hj : j < 8) :
    (enableCommand v).getLsbD j = if v.getLsbD 7 = true then v.getLsbD j else !v.getLsbD j := by
  unfold enableCommand
  split
  · rfl
  · rw [BitVec.getLsbD_not, decide_eq_true hj, Bool.true_and]

/-! ## The obligations -/

/-- Settles O45: the flags and the trace of a pulse are those of `VIA_STEP`, with the raises of the two timers. -/
theorem pulseRaisesFlags : Obligations.PulseRaisesFlags := by
  refine fun s => ⟨s.pulse, s.via.raises1, s.via.raises2, exec_clk s, s.via.raises1_iff, s.via.raises2_iff, fun j hj => ?_, ?_⟩
  · rw [State.pulse_ifr]; exact s.via.step_ifr_iff hj
  · rw [State.pulse_irqTrace]; exact s.via.step_irqTrace_eq_replicate

/-- Settles O19, register by register: each read is `State.returnByte` of its slot, and its word is its index. -/
theorem viaReadPlain : Obligations.ViaReadPlain := by
  intro s q hq
  simp only [List.mem_cons, List.not_mem_nil, or_false] at hq
  rcases hq with h | h | h | h | h | h | h | h <;> subst h <;> exact ⟨rfl, rfl⟩

/-- Settles O20: the four reads are `State.returnByte` of their slots and the three writes replace theirs. -/
theorem viaStorageSlots : Obligations.ViaStorageSlots := fun _ _ => ⟨rfl, rfl, rfl, rfl, rfl, rfl, rfl⟩

/-- Settles O21: each read returns and keeps the merge of its slot with its lines. -/
theorem viaReadPorts : Obligations.ViaReadPorts := fun _ =>
  ⟨⟨_, fun j _ => mergeBits_getLsbD _ _ _ j, rfl⟩, ⟨_, fun j _ => mergeBits_getLsbD _ _ _ j, rfl⟩⟩

/-- Settles O22, by the clear of each timer's flag. -/
theorem viaReadTimerLow : Obligations.ViaReadTimerLow := fun _ =>
  ⟨⟨_, clearedFlags_timer1 _, rfl⟩, ⟨_, clearedFlags_timer2 _, rfl⟩⟩

/-- Settles O23: the lines take the merge of the byte with their levels. -/
theorem viaWritePorts : Obligations.ViaWritePorts := fun _ _ =>
  ⟨⟨_, fun j _ => mergeBits_getLsbD _ _ _ j, rfl⟩, ⟨_, fun j _ => mergeBits_getLsbD _ _ _ j, rfl⟩, rfl, rfl⟩

/-- Settles O24: each write replaces its direction register alone. -/
theorem viaWriteDirection : Obligations.ViaWriteDirection := fun _ _ => ⟨rfl, rfl⟩

/-- Settles O25: the slot replaced is the latch's low byte. -/
theorem viaWriteCounterLowIsLatch : Obligations.ViaWriteCounterLowIsLatch := fun _ _ => ⟨rfl, rfl⟩

/-- Settles O26: each write replaces its slot alone. -/
theorem viaWritePlain : Obligations.ViaWritePlain := fun _ _ => ⟨rfl, rfl, rfl, rfl, rfl⟩

/-- Settles O27, by the clear of each timer's flag; the loads are the writes' own. -/
theorem viaWriteCounterHigh : Obligations.ViaWriteCounterHigh := fun _ _ =>
  ⟨⟨_, clearedFlags_timer1 _, rfl⟩, ⟨_, clearedFlags_timer2 _, rfl⟩⟩

/-- Settles O28, by the bits of the enable command. -/
theorem viaWriteEnable : Obligations.ViaWriteEnable := fun _ v =>
  ⟨enableCommand v, enableCommand_bit7 v, fun _ hj => enableCommand_getLsbD v (by omega), rfl⟩

end Sys2Proof.Machine
end

section
/-! The VIA's timers (spec/46_via_timers.md): their counts in one pulse and the frame of a pulse on the VIA side, and the run of
pulses to an expiry (R304). -/

namespace Sys2Proof.Machine

/-! ## One pulse -/

/-- `DEC16` as a number: one less, and 65535 from 0 (R301, D24). -/
theorem count_down_eq_ite {count : Nat} (h : count < 65536) :
    (count + 65535) % 65536 = if count = 0 then 65535 else count - 1 := by
  split <;> omega

/-- No part of a pulse writes what was returned or takes an operation off the list (R320). -/
theorem State.pulse_keeps_result_inbox (s : State) : s.pulse.result = s.result ∧ s.pulse.inbox = s.inbox := by
  have hgated (t : State) : t.tickUp.gatedSteps.result = t.result ∧ t.tickUp.gatedSteps.inbox = t.inbox := by
    obtain ⟨-, -, hresult, hinbox, -⟩ := t.tickUp.gatedSteps_frame
    exact ⟨hresult, hinbox⟩
  rw [State.pulse_eq]
  cases decodeBus3 s.via.portB with
  | reset => exact ⟨rfl, rfl⟩
  | inactive => exact hgated _
  | read => simpa [State.busCycle] using hgated (s.setVia s.via.step).busRead
  | write => simpa [State.busCycle] using hgated (s.setVia s.via.step).busWrite
  | latch => exact hgated _

/-- A pulse keeps timer 1's flag, and sets it at timer 1's expiry (R302). -/
theorem State.pulse_timer1_flag (s : State) :
    s.pulse.via.ifr.getLsbD 6 = (s.via.ifr.getLsbD 6 || decide (s.via.timer1 = 1)) := by
  rw [State.pulse_ifr, Via.step_ifr _ 6 (by omega)]
  simp [Via.expires1]

/-- A pulse keeps timer 2's flag, and sets it at timer 2's expiry (R303). -/
theorem State.pulse_timer2_flag (s : State) :
    s.pulse.via.ifr.getLsbD 5 = (s.via.ifr.getLsbD 5 || decide (s.via.timer2 = 1)) := by
  rw [State.pulse_ifr, Via.step_ifr _ 5 (by omega)]
  simp [Via.expires2]

/-! ## The counts on the way to an expiry -/

/-- A count that has gone down by `k`, modulo 65536, and has not gone past its expiry is `k` nearer to it (R304 (a)). -/
theorem eq_expiryIn_sub_mod {count now k : Nat} (hnow : now < 65536) (hdown : (now + k) % 65536 = count)
    (hk : k ≤ expiryIn count) : now = (expiryIn count - k) % 65536 := by
  unfold expiryIn at hk ⊢
  split_ifs at hk ⊢ <;> omega

/-- Timer 2 up to its expiry, in every mode (R303, R304 (a)). -/
theorem State.iterate_pulse_timer2_to_expiry {s : State} {k : Nat} (hk : k ≤ expiryIn s.via.timer2) :
    (State.pulse^[k] s).via.timer2 = (expiryIn s.via.timer2 - k) % 65536 :=
  eq_expiryIn_sub_mod (Via.timer2_lt _) (s.iterate_pulse_timer2 k) hk

/-- Timer 1 before its expiry, in both modes (R304 (a)). -/
theorem State.iterate_pulse_timer1_before_expiry {s : State} {k : Nat} (hk : k < expiryIn s.via.timer1) :
    (State.pulse^[k] s).via.timer1 = (expiryIn s.via.timer1 - k) % 65536 := by
  cases hmode : s.via.acr.getLsbD 6 with
  | false => exact eq_expiryIn_sub_mod (Via.timer1_lt _) (State.iterate_pulse_timer1_oneShot k hmode) hk.le
  | true => rw [← expiryIn_mod (Via.timer1_lt _), State.iterate_pulse_expiryIn_timer1 k hmode, if_pos hk]

/-- Timer 1 at its expiry: 0, but in continuous mode reloaded from its latch (R302, R304 (a)). -/
theorem State.iterate_pulse_timer1_at_expiry (s : State) :
    (State.pulse^[expiryIn s.via.timer1] s).via.timer1 = if s.via.acr.getLsbD 6 = true then s.via.latch1 else 0 := by
  split
  case isTrue hmode =>
    rw [← expiryIn_mod (Via.timer1_lt _), State.iterate_pulse_expiryIn_timer1 _ hmode, if_neg (lt_irrefl _), Nat.sub_self,
      Nat.zero_mod, Nat.sub_zero, expiryIn_mod s.via.latch1_lt]
  case isFalse hmode =>
    rw [eq_expiryIn_sub_mod (Via.timer1_lt _) (State.iterate_pulse_timer1_oneShot _ (Bool.not_eq_true _ ▸ hmode)) le_rfl,
      Nat.sub_self, Nat.zero_mod]

/-! ## The flag on the way to an expiry -/

/-- A flag that each pulse keeps and sets only as its counter passes from 1 to 0 stays while the counter goes down from `n`
to 1, and is set by the `n`-th pulse (R304 (a), R305). -/
theorem State.iterate_pulse_flag {flag : State → Bool} {count : State → Nat} {s : State} {n : Nat}
    (hflag : ∀ t : State, flag t.pulse = (flag t || decide (count t = 1))) (hpos : 0 < n) (hle : n ≤ 65536)
    (hcount : ∀ k, k < n → count (State.pulse^[k] s) = (n - k) % 65536) :
    (∀ k, k < n → flag (State.pulse^[k] s) = flag s) ∧ flag (State.pulse^[n] s) = true := by
  constructor
  · intro k hk
    induction k with
    | zero => rfl
    | succ k ih =>
      have hearly : count (State.pulse^[k] s) ≠ 1 := by rw [hcount k (by omega)]; omega
      rw [Function.iterate_succ_apply', hflag, ih (by omega), decide_eq_false hearly, Bool.or_false]
  · obtain ⟨m, rfl⟩ := Nat.exists_eq_succ_of_ne_zero hpos.ne'
    have hlast : count (State.pulse^[m] s) = 1 := by rw [hcount m (by omega)]; omega
    rw [Function.iterate_succ_apply', hflag, decide_eq_true hlast, Bool.or_true]

/-! ## The obligations -/

/-- Settles O44: the two counts of a pulse, with the reload of timer 1. -/
theorem pulseMovesTheTimers : Obligations.PulseMovesTheTimers := by
  intro s
  obtain ⟨hcount1, hcount2, -⟩ := s.pulse_timers
  refine ⟨s.pulse, exec_clk s, ?_, hcount2.trans (count_down_eq_ite s.via.timer2_lt)⟩
  rw [hcount1, count_down_eq_ite s.via.timer1_lt]
  simp only [Via.expires1, Bool.and_eq_true, decide_eq_true_eq]

/-- Settles O46: on the VIA a pulse is `VIA_STEP` with port A, and `VIA_STEP` keeps each of these registers. -/
theorem pulseKeepsVia : Obligations.PulseKeepsVia := by
  intro s
  obtain ⟨a, hvia, -⟩ := s.pulse_via
  refine ⟨s.pulse, exec_clk s, ?_⟩
  rw [hvia]
  exact ⟨s.via.step_orb, s.via.step_ora, s.via.step_ddrb, s.via.step_ddra, s.via.step_t1lL, s.via.step_t1lH, s.via.step_sr,
    s.via.step_acr, s.via.step_pcr, s.via.step_ier, s.via.step_oraNh, s.via.step_portB, s.pulse_keeps_result_inbox⟩

/-- Settles O53, by the counts of timer 1 before and at its expiry and the flag that goes with them. -/
theorem timerOneCountsToExpiry : Obligations.TimerOneCountsToExpiry := by
  intro s n hn
  obtain rfl : n = expiryIn s.via.timer1 := hn
  have hcount (k : Nat) (hk : k < expiryIn s.via.timer1) := State.iterate_pulse_timer1_before_expiry hk
  obtain ⟨hbefore, hset⟩ := State.iterate_pulse_flag (flag := fun t => t.via.ifr.getLsbD 6) (count := fun t => t.via.timer1)
    State.pulse_timer1_flag (expiryIn_pos _) (expiryIn_le s.via.timer1_lt) hcount
  exact ⟨fun k hk => ⟨_, pulses_eq k s, hcount k hk, hbefore k hk⟩,
    _, pulses_eq _ s, hset, s.iterate_pulse_timer1_at_expiry⟩

/-- Settles O54, by the count of timer 2 up to its expiry and the flag that goes with it. -/
theorem timerTwoCountsToExpiry : Obligations.TimerTwoCountsToExpiry := by
  intro s n hn
  obtain rfl : n = expiryIn s.via.timer2 := hn
  have hcount (k : Nat) (hk : k ≤ expiryIn s.via.timer2) := State.iterate_pulse_timer2_to_expiry hk
  obtain ⟨hbefore, hset⟩ := State.iterate_pulse_flag (flag := fun t => t.via.ifr.getLsbD 5) (count := fun t => t.via.timer2)
    State.pulse_timer2_flag (expiryIn_pos _) (expiryIn_le s.via.timer2_lt) fun k hk => hcount k hk.le
  have hend : (State.pulse^[expiryIn s.via.timer2] s).via.timer2 = 0 := by rw [hcount _ le_rfl, Nat.sub_self, Nat.zero_mod]
  exact ⟨fun k hk => ⟨_, pulses_eq k s, hcount k hk.le, hbefore k hk⟩, _, pulses_eq _ s, hset, hend⟩

end Sys2Proof.Machine
end

section
/-! The clock pulse (spec/47_clock_pulse.md): the order of its parts in and outside reset, and what a pulse outside reset leaves
alone in the PSG. -/

namespace Sys2Proof.Machine

/-! ## The bus action of a pulse outside reset (R130) -/

/-- What a bus action other than the reset keeps on the way from `s` to `a`: the tick, the draws, the buffer with its cursor, and
every signal and level the mixer reads (R132 to R135). -/
structure BusActionKeeps (s a : State) : Prop where
  tick : a.psg.tick = s.psg.tick
  draws : a.draws = s.draws
  buf : a.psg.buf = s.psg.buf
  cursor : a.psg.cursor = s.psg.cursor
  envValue : a.psg.env.value = s.psg.env.value
  noiseSignal : a.psg.noise.signal = s.psg.noise.signal
  toneSignal : ∀ c : Fin 3, (a.psg.tone[c]).signal = (s.psg.tone[c]).signal

theorem BusActionKeeps.of_psg_eq {s a : State} (hpsg : a.psg = s.psg) (hdraws : a.draws = s.draws) : BusActionKeeps s a := by
  constructor <;> simp [hpsg, hdraws]

/-- A bus write keeps them, whichever register it writes (R78, R134). -/
theorem BusActionKeeps.busWrite (s : State) : BusActionKeeps s s.busWrite := by
  obtain ⟨hpsg, -⟩ | ⟨i, -, hpsg⟩ := s.busWrite_psg
  · exact .of_psg_eq hpsg s.busWrite_draws
  · obtain ⟨-, hbuf, hcursor, htick, henv, hnoise, htone⟩ := s.psg.write_frame i s.via.portA
    rw [← hpsg] at hbuf hcursor htick henv hnoise htone
    exact ⟨htick, s.busWrite_draws, hbuf, hcursor, henv, hnoise, htone⟩

theorem BusActionKeeps.of_exec {act : BusAction} {s a : State} (hact : act ≠ .reset) (h : exec act.instr s = .next a) :
    BusActionKeeps s a := by
  cases act with
  | reset => exact absurd rfl hact
  | inactive => cases h; exact .of_psg_eq rfl rfl
  | read => cases h; exact .of_psg_eq s.busRead_psg s.busRead_draws
  | write => cases h; exact .busWrite s
  | latch => cases h; exact ⟨rfl, rfl, rfl, rfl, rfl, rfl, fun _ => rfl⟩

/-! ## The order inside a pulse -/

/-- After an action other than the reset come the tick and the steps it gates (R320). -/
theorem State.busCycle_eq_of_exec {act : BusAction} {s : State} (hact : act ≠ .reset) :
    ∃ a, exec act.instr s = .next a ∧ s.busCycle act = a.tickUp.gatedSteps := by
  cases act with
  | reset => exact absurd rfl hact
  | inactive | read | write | latch => exact ⟨_, rfl, rfl⟩

/-- Outside reset a pulse is `VIA_STEP`, the bus action, the tick and the gated steps, and the action keeps what it may not touch
(R320). -/
theorem State.pulse_eq_of_exec {s : State} (hout : s.via.portB.getLsbD 2 = true) :
    ∃ a, exec (decodeBus3 s.via.portB).instr (s.setVia s.via.step) = .next a ∧ s.pulse = a.tickUp.gatedSteps ∧
      BusActionKeeps s a := by
  have hact : decodeBus3 s.via.portB ≠ .reset := fun hreset => by
    rw [decodeBus3_reset_iff, hout] at hreset; cases hreset
  obtain ⟨a, hexec, hcycle⟩ := State.busCycle_eq_of_exec (s := s.setVia s.via.step) hact
  obtain ⟨htick, hdraws, hbuf, hcursor, henv, hnoise, htone⟩ := BusActionKeeps.of_exec hact hexec
  exact ⟨a, hexec, s.pulse_eq.trans hcycle, htick, hdraws, hbuf, hcursor, henv, hnoise, htone⟩

/-- The tick counts modulo 256 (R322, D9). -/
theorem State.tickUp_tick_toNat (s : State) : s.tickUp.psg.tick.toNat = (s.psg.tick.toNat + 1) % 256 :=
  BitVec.toNat_add _ _

/-- An envelope step is the shape row that register 13 decodes to (R210, R324). -/
theorem exec_decoded_shape (s : State) : exec (shapeOf (shapeCode (s.psg.reg 13))) s = .next s.envStep :=
  exec_shapeOf _ s

/-- The gated steps write no buffer cell but the one at the cursor (R234). -/
theorem State.gatedSteps_read_other {s : State} (hform : Memory.wf s.psg.buf = true) {a : Nat} (hother : a ≠ s.psg.cursor) :
    Memory.read s.gatedSteps.psg.buf a = Memory.read s.psg.buf a := by
  have hsynth : Memory.read s.synthStep.psg.buf a = Memory.read s.psg.buf a := by
    rw [State.synthStep_buf, Memory.read_write_other hform _ hother]
  unfold State.gatedSteps
  split_ifs
  · rw [State.envStep_buf, hsynth]
  · exact hsynth
  · rfl

/-! ## The obligations -/

/-- Settles O43: the action is the one port B decodes to, and the new tick chooses among no gated step, the synthesis step, and
both. -/
theorem pulseOrder : Obligations.PulseOrder := by
  intro s hout
  obtain ⟨a, hexec, hpulse, hkeeps⟩ := State.pulse_eq_of_exec hout
  have htick : a.tickUp.psg.tick.toNat = (s.psg.tick.toNat + 1) % 256 := by rw [State.tickUp_tick_toNat, hkeeps.tick]
  rw [exec_clk, hpulse]
  refine ⟨_, a, a.tickUp, rfl, hexec, by rw [← hkeeps.tick]; rfl, fun hplain => ?_, fun hsample hnot => ?_, fun hwrap => ?_⟩
  · rw [State.gatedSteps_off (by omega)]
  · have hne : a.tickUp.psg.tick ≠ 0#8 := fun hzero => hnot (by rw [← htick, hzero]; rfl)
    rw [State.gatedSteps_synth (by omega) hne]
  · have hzero : a.tickUp.psg.tick = 0#8 := BitVec.eq_of_toNat_eq (htick.trans hwrap)
    rw [State.gatedSteps_env hzero]
    exact ⟨_, rfl, (exec_decoded_shape a.tickUp.synthStep).symm⟩

/-- Settles O47: the bus action keeps the buffer and the signals, and what follows it writes at most the cell at the cursor. -/
theorem pulseKeepsPsg : Obligations.PulseKeepsPsg := by
  intro s hinv hout
  obtain ⟨htick, -, -, hsel⟩ := State.pulse_outside_reset hout
  obtain ⟨-, -, -, hlatch⟩ := decodeBus3_low3 s.via.portB
  obtain ⟨a, -, hpulse, hkeeps⟩ := State.pulse_eq_of_exec hout
  refine ⟨s.pulse, exec_clk s, htick, fun hcode => hsel (mt hlatch.mpr hcode), fun k hother => ?_, fun hplain => ?_⟩
  · have hform : Memory.wf a.psg.buf = true := hkeeps.buf ▸ hinv.psg.bufForm
    rw [hpulse, ← hkeeps.buf]
    exact State.gatedSteps_read_other (s := a.tickUp) hform (hkeeps.cursor ▸ hother)
  · have hoff : a.tickUp.psg.tick.toNat % 16 ≠ 0 := by rw [State.tickUp_tick_toNat, hkeeps.tick]; omega
    rw [hpulse, State.gatedSteps_off hoff]
    exact ⟨hkeeps.buf, hkeeps.cursor, hkeeps.draws, hkeeps.envValue, hkeeps.noiseSignal, hkeeps.toneSignal⟩

/-- Settles O42: the decode finds the reset, and the pulse ends with it. -/
theorem pulseInReset : Obligations.PulseInReset :=
  fun s hreset => (exec_clk s).trans (congrArg Host.Outcome.next (State.pulse_in_reset hreset))

end Sys2Proof.Machine
end

section
/-! Faults and interrupts (spec/60_exceptions.md): which instruction notifies the Host (R346), what an operation can return to it
(R354), and a step with no operation to perform (R355). -/

namespace Sys2Proof.Machine

/-! ## A step that fetches no operation -/

/-- Bytes that do not decode are answered by `noOperation`. -/
theorem step_of_fetch_error {s : State} {e : DecodeError} (h : s.fetch = .error e) : step s = noOperation s e := by
  unfold step; rw [h]

/-- A write word of either class takes a value byte, so alone it is half an operation (R112; log 8). -/
theorem decode_writeWord_alone {w : Byte} (h7 : w.getLsbD 7 = false) (h5 : w.getLsbD 5 = false) (h4 : w.getLsbD 4 = true) :
    decode .opw [w] = .error (.missingOperand w) := by
  simp only [decode, decodeOpw, h7, h5, h4]
  cases w.getLsbD 6 with
  | false | true => rfl

/-! ## The events of an instruction -/

/-- The trace stays, but for a pulse (R346). -/
theorem exec_irqTrace {i : Instr} {s t : State} (h : exec i s = .next t) :
    t.via.irqTrace = s.via.irqTrace ∨ i = .clk ∧ t = s.pulse := by
  cases i with
  | clk => cases h; exact .inr ⟨rfl, rfl⟩
  | busRead =>
    cases h
    obtain ⟨a, hvia⟩ := s.busRead_via
    exact .inl (by rw [hvia])
  | busWrite => cases h; exact .inl (by rw [State.busWrite_via])
  | _ => cases h; exact .inl rfl

/-- A pulse emits at most one event for each of the two timers (R345). -/
theorem State.pulse_irqTrace_le_two (s : State) :
    ∃ n, n ≤ 2 ∧ s.pulse.via.irqTrace = s.via.irqTrace ++ List.replicate n .irq := by
  refine ⟨_, ?_, s.pulse_irqTrace.trans s.via.step_irqTrace_eq_replicate⟩
  split <;> split <;> decide

/-! ## What an operation returns -/

/-- The VIA reads, each with the byte it returns as a function of the VIA alone (R266 to R281). -/
def viaReads : List (Instr × (Via → Byte)) :=
  [(.viaRdIrb, fun x => mergeBits x.orb x.ddrb x.portB), (.viaRdIra, fun x => mergeBits x.ora x.ddra x.portA),
   (.viaRdDdrb, Via.ddrb), (.viaRdDdra, Via.ddra), (.viaRdT1cL, Via.t1cL), (.viaRdT1cH, Via.t1cH), (.viaRdT1lL, Via.t1lL),
   (.viaRdT1lH, Via.t1lH), (.viaRdT2cL, Via.t2cL), (.viaRdT2cH, Via.t2cH), (.viaRdSr, Via.sr), (.viaRdAcr, Via.acr),
   (.viaRdPcr, Via.pcr), (.viaRdIfr, Via.ifr), (.viaRdIer, Via.ier), (.viaRdOraNh, Via.oraNh)]

theorem exec_viaRead_result {q : Instr × (Via → Byte)} (hq : q ∈ viaReads) {s t : State} (h : exec q.1 s = .next t) :
    t.result = .byte (q.2 s.via) := by
  simp only [viaReads, List.mem_cons, List.not_mem_nil, or_false] at hq
  rcases hq with rfl | rfl | rfl | rfl | rfl | rfl | rfl | rfl | rfl | rfl | rfl | rfl | rfl | rfl | rfl | rfl <;>
    cases h <;> rfl

theorem exec_psgRead_result {q : Instr × Fin 16} (hq : q ∈ psgReads) {s t : State} (h : exec q.1 s = .next t) :
    t.result = .byte (s.psg.reg q.2) := by
  rw [exec_psgRead hq] at h
  cases h; rfl

/-- An instruction is the Sink's, a direct read of the PSG or of the VIA, or it returns nothing new (R114). -/
theorem exec_result (i : Instr) :
    i = .drain ∨ (∃ r, (i, r) ∈ psgReads) ∨ (∃ f, (i, f) ∈ viaReads) ∨
      ∀ s t, exec i s = .next t → t.result = s.result := by
  cases i with
  | drain => exact .inl rfl
  | psgRd0 | psgRd1 | psgRd2 | psgRd3 | psgRd4 | psgRd5 | psgRd6 | psgRd7 | psgRd8 | psgRd9 | psgRd10 | psgRd11 | psgRd12
  | psgRd13 | psgRd14 | psgRd15 => exact .inr (.inl (by simp [psgReads]))
  | viaRdIrb | viaRdIra | viaRdDdrb | viaRdDdra | viaRdT1cL | viaRdT1cH | viaRdT1lL | viaRdT1lH | viaRdT2cL | viaRdT2cH
  | viaRdSr | viaRdAcr | viaRdPcr | viaRdIfr | viaRdIer | viaRdOraNh => exact .inr (.inr (.inl (by simp [viaReads])))
  | busRead => exact .inr (.inr (.inr fun s t h => by cases h; exact s.busRead_result))
  | busWrite => exact .inr (.inr (.inr fun s t h => by cases h; exact s.busWrite_result))
  | clk => exact .inr (.inr (.inr fun s t h => by cases h; exact s.pulse_keeps_result_inbox.1))
  | _ => exact .inr (.inr (.inr fun s t h => by cases h; rfl))

/-! ## The obligations -/

/-- Settles O30: all but a pulse leave the trace, and a pulse adds an event for each timer that raises while enabled. -/
theorem onlyPulsesNotify : Obligations.OnlyPulsesNotify := by
  intro i s t h
  obtain htrace | ⟨hclk, rfl⟩ := exec_irqTrace h
  · exact ⟨fun _ => htrace, 0, Nat.zero_le 2, by rw [htrace, List.replicate_zero, List.append_nil]⟩
  · exact ⟨fun hne => absurd hclk hne, s.pulse_irqTrace_le_two⟩

/-- Settles O33: what an instruction returns is a register byte, a function of the VIA, or the last answer again, and each is
the same in both states. -/
theorem hiddenStateIsNotReadable : Obligations.HiddenStateIsNotReadable := by
  intro i s s' t t' hdrain hregs hvia hresult h h'
  obtain hd | ⟨r, hr⟩ | ⟨f, hf⟩ | hkeeps := exec_result i
  · exact absurd hd hdrain
  · rw [exec_psgRead_result hr h, exec_psgRead_result hr h', Psg.reg_congr hregs r]
  · rw [exec_viaRead_result hf h, exec_viaRead_result hf h', hvia]
  · rw [hkeeps s t h, hkeeps s' t' h', hresult]

/-- Settles O9: no byte decodes to `DecodeError.empty`, a write word alone to `DecodeError.missingOperand`. -/
theorem nothingToPerformHoldsState : Obligations.NothingToPerformHoldsState := by
  refine ⟨fun s hinbox => ?_, fun s w hinbox h7 h5 h4 => ?_⟩
  · exact step_of_fetch_error (e := .empty) (by rw [State.fetch, hinbox]; rfl)
  · exact step_of_fetch_error (by rw [State.fetch, hinbox, decode_writeWord_alone h7 h5 h4])

end Sys2Proof.Machine
end
